-- ==== Sys2Proof/Word.lean ====
section
/-! DEFINITION. The plainest types of the L416 model: bytes, and readings of the group line. -/

namespace Sys2Proof

/-- One byte of the companion frame, the configuration block or the message data (R210 to R213). -/
abbrev Byte := BitVec 8

/-- One reading of the group line, kept as the bit it carries in a value window (R1): `true` is FREE, the bit 1;
`false` is PULLED, the bit 0. -/
abbrev Reading := Bool

/-- The reading FREE: no station holds the line low (R1). -/
abbrev Reading.free : Reading := true

/-- The reading PULLED: at least one station holds the line low (R1). -/
abbrev Reading.pulled : Reading := false

end Sys2Proof
end

