-- ==== Sys2Proof/Config.lean ====
section
/-! DEFINITION. The fixed numbers of the L416 that several blocks use, each with the rule that states it.
The spec leaves no value of the station to the implementation, so there is no opaque constant here: what it
leaves open is an order of simultaneous happenings, and that is an operand of the commands (notes/assumptions/3.md). -/

namespace Sys2Proof.Config

/-- One step of the cell width code, in nanoseconds: 25 µs (R3, R207). -/
def widthStep : Nat := 25000

/-- Most entries of the claim queue (R80). -/
def maxEntries : Nat := 8

/-- Most reports in the report queue (R194). -/
def maxReports : Nat := 16

/-- The attempt count that removes an entry as FAILED (R93, R95). -/
def maxAttempts : Nat := 4

/-- The fault score that mutes an ACTIVE station (R45). -/
def scoreHigh : Nat := 64

/-- The fault score at or below which a MUTED station becomes ACTIVE (R46). -/
def scoreLow : Nat := 16

/-- Where 8-bit counts saturate (R19, R40, R98). -/
def maxByte : Nat := 255

/-- Where the settled, void and discard counts saturate (R79). -/
def maxWord : Nat := 65535

/-- Where the silence count saturates (R27). -/
def maxSilence : Nat := 765

/-- The clear stretch that gives a line clear (R27). -/
def clearCells : Nat := 32

/-- Where the settle gap saturates (R138). -/
def maxGap : Nat := 64

/-- The unverified age that clears a zone (R121). -/
def agedFrames : Nat := 64

/-- The highest level of a zone (R103). -/
def maxLevel : Nat := 1023

/-- The least frame basis (R150). -/
def minBasis : Nat := 92

/-- The units in which the frame position is counted: 32736 of them to a cell. Every period start, pulse edge and
cell start of R148 to R152 is a whole number of these (32736 = 32 × 1023). -/
def unitsPerCell : Nat := 32736

/-- The format identifier of the configuration block, A6h (R211). -/
def formatId : Byte := 0xA6#8

/-- The length of the configuration block in bytes (R198). -/
def blockLength : Nat := 39

/-- The start byte of a companion frame, C5h (R212). -/
def startByte : Byte := 0xC5#8

end Sys2Proof.Config
end

