-- ==== Sys2Proof/Syntax.lean ====
section
/-! DEFINITION. The commands of the L416: one constructor of `Instr` per row of spec/opcode_table.json, with what the
outside world supplies at that step as its operands. Where the spec says that simultaneous happenings may be taken in
either order, the order is an operand too. -/

namespace Sys2Proof

/-- The work of the claim queue at a frame mark whose order R88 and R167 leave open: the return of an IN FLIGHT entry
whose contest or message the mark ends (R91, R94), the ageing and staleness sweep (R96), which comes after that return
(R94), and the offer of each key channel (R164, R167). -/
inductive QueueTask where
  | frameEnd
  | sweep
  | key (k : Fin 4)
  deriving DecidableEq, Repr

/-- The order in which CP takes the reports of one moment (R194): each number picks the list of them whose next report
is taken (see `Sys2Proof.Machine.interleave`). DESIGN CHOICE (notes/assumptions/37.md): it also orders MU's own STATE,
MEMBER and DUPLICATE NUMBER. -/
abbrev OfferOrder := List Nat

/-- What a station observes at the end of a cell or at a FREE-to-PULLED transition (R2 to R5, R25 to R27). DESIGN CHOICE
(notes/assumptions/25.md, 26.md, 28.md): the spec does not say what a cell that a transition interrupts before one of
its samples reads there, nor whether a cell begun by its own elapsed width on a FREE line, where the station's own tick
takes the line low, began with a transition; the sender gives both samples for every cell, and says which of the two it
was. -/
structure CellObs where
  /-- the happening is a FREE-to-PULLED transition; otherwise the current cell's time has elapsed -/
  transition : Bool
  /-- how long the current cell has lasted, in nanoseconds -/
  width : Nat
  /-- the mid-cell sample of the ended cell -/
  mid : Reading
  /-- the rest sample of the ended cell -/
  rest : Reading
  /-- how long the line has been PULLED without a break at this instant, in nanoseconds (0 when FREE), whenever that
  began; LC takes of it what has passed since its measure started (R25) -/
  pulledFor : Nat
  /-- how long ago, in nanoseconds, the warm restart was that fell within the current cell; LC asks for it in no other
  cell (R28) -/
  since : Nat
  deriving DecidableEq, Repr

/-- What a station observes when the line has been PULLED for longer than 3 own cell widths (R25). -/
structure PullObs where
  /-- how long the line has been PULLED without a break, in nanoseconds, whenever that began -/
  pulledFor : Nat
  /-- how long the current cell has lasted, in nanoseconds -/
  width : Nat
  /-- as in `CellObs` -/
  since : Nat
  deriving DecidableEq, Repr

/-- What a station takes from outside at a frame mark: the KEY pins, and the orders the spec leaves open. -/
structure MarkObs where
  /-- the levels of KEY0 to KEY3 at the instant the mark is taken (bit k is KEYk, 1 for high) (R164) -/
  keys : BitVec 4
  /-- the order of the frame's end, the sweep and the four key offers at the claim queue (R88, R94, R167) -/
  queueOrder : List QueueTask
  /-- whether the frame count has already increased when the DISTURBANCE of a cut is offered (R16, R17, R193) -/
  cutCounted : Bool
  /-- whether the frame count has already increased when a DUPLICATE NUMBER is offered (R17, R39, R193) -/
  duplicateCounted : Bool
  /-- the order in which CP takes the reports of the mark -/
  offers : OfferOrder
  deriving DecidableEq, Repr

/-- The commands, one per row of spec/opcode_table.json. -/
inductive Instr where
  /-- COLD_RESET (R30): NRST is asserted or power is applied. -/
  | coldReset
  /-- RESET_END (R30): the reset ends. -/
  | resetEnd
  /-- MEMORY_READ_END (R200, R203): the next bytes that MDIN brings, all of the block's or only some; the read ends with
  its 39th byte. -/
  | memoryReadEnd (block : List Byte)
  /-- BYTE_RECEIVED (R179): a byte on CRXD; `stop` says that its stop bit reads high. -/
  | byteReceived (data : Byte) (stop : Bool)
  /-- FRAME_GAP_TIMEOUT (R180): more than 10 ms without a start bit. -/
  | frameGapTimeout
  /-- CONFIGURE (R184): a complete request of this type, with its tag and body. -/
  | configure (tag : Byte) (body : List Byte)
  /-- SEND (R185). -/
  | send (tag : Byte) (body : List Byte)
  /-- QUERY STATION (R186). -/
  | queryStation (tag : Byte) (body : List Byte)
  /-- QUERY ZONE (R187). -/
  | queryZone (tag : Byte) (body : List Byte)
  /-- QUERY MEMBERS (R188). -/
  | queryMembers (tag : Byte) (body : List Byte)
  /-- QUERY SCENE (R189). -/
  | queryScene (tag : Byte) (body : List Byte)
  /-- SUBSCRIBE (R190). -/
  | subscribe (tag : Byte) (body : List Byte)
  /-- RESTART (R191). -/
  | restart (tag : Byte) (body : List Byte)
  /-- FRAME_TRANSMITTED (R195): the end of the stop bit of a transmitted frame's last byte. -/
  | frameTransmitted
  /-- CELL_START (R4, R5): the current cell's time has elapsed, or the line changes from FREE to PULLED. -/
  | cellStart (o : CellObs)
  /-- FRAME_TIMER_EXPIRY (R13): the frame mark that a ticking station issues at its own frame length. -/
  | frameTimerExpiry (m : MarkObs)
  /-- FRAME_MARK (R14): the rest sample of the current cell reads PULLED and is recognised as a frame mark. -/
  | frameMark (m : MarkObs)
  /-- LOCAL_FRAME_MARK (R11): the local mark of a station in LINE FAULT. -/
  | localFrameMark (m : MarkObs)
  /-- FADE_END (R114): the last fade step of zone `z`. -/
  | fadeEnd (z : Fin 16)
  /-- HOLD_EXPIRY (R115): the last count of zone `z`'s hold. -/
  | holdExpiry (z : Fin 16)
  /-- AGED (R121): the last count of zone `z`'s unverified age. -/
  | aged (z : Fin 16)
  /-- FAILSAFE (R123): the failsafe count reaches its limit. -/
  | failsafe
  /-- STALE (R96): the entry at place `i` of the claim queue (0 is the head) meets the staleness sweep. -/
  | stale (i : Nat)
  /-- LONG_PRESS (R166): key channel `k` reaches the long-press threshold. -/
  | longPress (k : Fin 4)
  /-- REPEAT (R166): a repeat of key channel `k` falls due. -/
  | repeatDue (k : Fin 4)
  /-- COUNT_FIELD (R18): readings of the next cells of 3 to 10. -/
  | countField (cells : List Reading) (order : OfferOrder)
  /-- PRESENCE_CELL (R20): the reading of cell 11. -/
  | presenceCell (r : Reading) (order : OfferOrder)
  /-- CLAIM_FIELD (R21): the claim field begins, and readings of the next cells of 12 to 19. -/
  | claimField (cells : List Reading) (order : OfferOrder)
  /-- MESSAGE (R66): readings of the next cells of 20 to 88; `faultFirst` says that a drive fault of a cell is taken
  before the cell's reading is handed to the message unit. -/
  | message (cells : List Reading) (faultFirst : Bool) (order : OfferOrder)
  /-- VETO_CELL (R70): the reading of cell 89; `faultFirst` as for MESSAGE (R75). -/
  | vetoCell (r : Reading) (faultFirst : Bool) (order : OfferOrder)
  /-- STUCK_PULL (R25): the line has been PULLED without a break for longer than 3 own cell widths. -/
  | stuckPull (o : PullObs) (order : OfferOrder)
  /-- FOUNDING (R34): the silence count reaches three own frame lengths. -/
  | founding (m : MarkObs)
  /-- LINE_CLEAR (R49): the clear stretch reaches 32. -/
  | lineClear
  /-- OUTPUT_PERIOD_START (R151): the frame position reaches the start of period `n` of channel `ch`. -/
  | outputPeriodStart (ch : Fin 4) (n : Nat)
  /-- PULSE_EDGE (R152): the frame position reaches the edge of channel `ch` at `pos`, counted in units of 1/32736 of a
  cell. -/
  | pulseEdge (ch : Fin 4) (pos : Nat)
  deriving DecidableEq, Repr

end Sys2Proof
end

