-- ==== Sys2Proof/Machine/State.lean ====
section
/-! DEFINITION. The state of the L416: every piece of state the spec gives its eleven blocks (00_scope section 2.3), as
plain data, the queue of waiting commands, the reset state, and one named update per block. -/

namespace Sys2Proof.Machine

/-! ### Messages and requests -/

/-- A message by its kind and fields (R56). Levels, remainders and steps are the numbers the line carries. -/
inductive Msg where
  | level (zone fade : Fin 16) (level : Nat)
  | step (zone : Fin 16) (step : Int)
  | toggle (zone fade : Fin 16)
  | halt (zone : Fin 16)
  | recall (scene fade : Fin 16)
  | capture (scene : Fin 16) (gen : Byte)
  | occupy (zone holdCode fade : Fin 16) (vacant : Nat)
  | zoneStatement (zone : Fin 16) (target current fade lastOn : Nat)
  | holdStatement (zone : Fin 16) (present : Bool) (remainder vacant : Nat) (fade : Fin 16)
  | sceneStatement (scene zone : Fin 16) (gen : Byte) (present : Bool) (level : Nat)
  deriving DecidableEq, Repr

/-- A request of the claim queue: kinds 0 to 6, a CAPTURE without its generation (R80). -/
inductive Request where
  | level (zone fade : Fin 16) (level : Nat)
  | step (zone : Fin 16) (step : Int)
  | toggle (zone fade : Fin 16)
  | halt (zone : Fin 16)
  | recall (scene fade : Fin 16)
  | capture (scene : Fin 16)
  | occupy (zone holdCode fade : Fin 16) (vacant : Nat)
  deriving DecidableEq, Repr

/-! ### Membership unit -/

/-- The station state (R29). -/
inductive StationState where
  | reset | loading | unconfigured | listening | active | muted | lineFault
  deriving DecidableEq, Repr

/-- The cause a STATE report carries (R29, R213). -/
inductive Cause where
  | coldStart | loaded | noConfiguration | configured | founded | joined | scoreHigh | scoreLow | stuckPull
  | driveFaults | lineClear | restart
  deriving DecidableEq, Repr

/-- One record of the member table (R50). -/
structure Member where
  present : Bool
  misses  : Fin 2
  zones   : BitVec 16
  deriving DecidableEq, Repr

/-- An ABSENT record with misses 0 and an empty zone set (R50). -/
def Member.absent : Member := ⟨false, 0, 0#16⟩

/-- The membership unit (chapter 2). -/
structure Mu where
  /-- the station state (R29) -/
  station     : StationState
  /-- the fault score, 0..255 (R40) -/
  score       : Nat
  /-- the member table (R50) -/
  members     : Vector Member 32
  /-- the last count, or none (R36) -/
  lastCount   : Option Byte
  /-- the count pair is held (R36) -/
  pairHeld    : Bool
  /-- the own-cell FREE mark is seen (R36) -/
  ownFree     : Bool
  /-- the drive-fault history: the frame before had a drive fault (R43) -/
  faultBefore : Bool
  /-- the station has been ACTIVE or MUTED since the mark that began the frame (R44) -/
  memberFrame : Bool
  /-- the station has been ACTIVE since the mark that began the frame (R121) -/
  activeFrame : Bool
  /-- a happening of R41 to R43 has raised the score in this frame (R44) -/
  raised      : Bool
  deriving DecidableEq, Repr

/-! ### Line controller -/

/-- What the station pulls in the current cell (R2): the tick, the value window, and the rest quarter. -/
structure Drive where
  tick  : Bool
  value : Bool
  rest  : Bool
  deriving DecidableEq, Repr

/-- GLINE released for the whole cell (R1). -/
def Drive.released : Drive := ⟨false, false, false⟩

/-- GLINE pulled for the whole cell, as in a frame mark (R13, R14). -/
def Drive.whole : Drive := ⟨true, true, true⟩

/-- The block that presents a claim (R89, R140). -/
inductive Presenter where
  | queue | generator
  deriving DecidableEq, Repr

/-- A contest in the claim field that has not ended: the claim sent and the block that presented it (R21). -/
structure Contest where
  claim : Byte
  by_   : Presenter
  deriving DecidableEq, Repr

/-- The line controller (chapter 1). -/
structure Lc where
  /-- what the station pulls in the current cell (R2, R7) -/
  drive        : Drive
  /-- the current cell began with a FREE-to-PULLED transition and its rest sample has not been judged (R14) -/
  markable     : Bool
  /-- the running width in nanoseconds (R3) -/
  running      : Nat
  /-- the framed indication (R10) -/
  framed       : Bool
  /-- the frame timer (R11) -/
  timer        : Nat
  /-- the frame count (R17) -/
  count        : Byte
  /-- the slip count, 0..255 (R19) -/
  slips        : Nat
  /-- the per-frame drive fault indication (R24) -/
  driveFault   : Bool
  /-- the per-frame disturbance indication (R26) -/
  disturbance  : Bool
  /-- the per-frame claim empty indication (R9, R12) -/
  claimEmpty   : Bool
  /-- the silence count, 0..765 (R27) -/
  silence      : Nat
  /-- the part of an own cell width, in nanoseconds, that has passed since the silence count last changed; below 0 by
  what of the present cell had passed when a transition of a mark cell set it back (R27) -/
  silencePart  : Int
  /-- the clear stretch, 0..32 (R27) -/
  clear        : Nat
  /-- the stuck pull measure: how long, in nanoseconds, the line had been PULLED when last measured (R25) -/
  pullLength   : Nat
  /-- how long, in nanoseconds, the stuck pull measure had run at the current cell's start, since the entry that started
  it: a line already PULLED then is measured from that entry (R25, R28) -/
  measured     : Nat
  /-- a warm restart fell within the current cell: the measures of this cell run from the restart and not from the
  cell's start (R27, R28) -/
  fresh        : Bool
  /-- the stuck pull of the present stretch has been handed to MU (R25) -/
  pullHanded   : Bool
  /-- the number of the next cell whose reading a field takes: 3 after a frame mark, 90 after the veto cell (R8) -/
  nextCell     : Nat
  /-- the station is still a sender of this frame's count field (R18) -/
  countSending : Bool
  /-- the count field readings so far (R18) -/
  countBits    : List Bool
  /-- a complete count field has been read in this frame (R18) -/
  countRead    : Bool
  /-- the claim field of this frame has begun, so that the claim has been presented or not (R89, R140) -/
  claimOpen    : Bool
  /-- the contest in progress (R21) -/
  contest      : Option Contest
  /-- the claim field readings so far (R21) -/
  claimBits    : List Bool
  deriving DecidableEq, Repr

/-! ### Message unit -/

/-- The phase of the frame record (R59, R60). -/
inductive Phase where
  | noFrame | claim | noMessage | message | result
  deriving DecidableEq, Repr

/-- The role of the station in the frame's message (R59). -/
inductive Role where
  | receiver | originator
  deriving DecidableEq, Repr

/-- The result of the frame's message (R59, R70, R73). -/
inductive Verdict where
  | settled | void | discarded | cutShort
  deriving DecidableEq, Repr

/-- The frame record (R59). The kind, its data length and the data bytes are read from `cells`. -/
structure FrameRecord where
  phase      : Phase
  role       : Role
  /-- the claim byte as read: priority in the top three bits, origin in the low five (R210) -/
  claim      : Byte
  /-- cells 20 on, as read by a receiver and as sent by the originator (R59) -/
  cells      : List Bool
  /-- the check register (R58) -/
  check      : Byte
  faultFound : Bool
  mismatch   : Bool
  veto       : Bool
  result     : Option Verdict
  /-- the originator's bit stream of kind, data and check, fixed at the win (R62) -/
  stream     : List Bool
  /-- the block whose claim won, at the originator (R62) -/
  presenter  : Option Presenter
  deriving DecidableEq, Repr

/-- The frame record with every field cleared, in the given phase; the check register is all ones (R58, R59, R60). -/
def FrameRecord.cleared (p : Phase) : FrameRecord :=
  ⟨p, .receiver, 0#8, [], 0xFF#8, false, false, false, none, [], none⟩

/-- A settled message (R59): its claim, kind, data run, the frame count of its frame, and whether it is this station's
own. -/
structure Settled where
  claim : Byte
  kind  : Nat
  bits  : List Bool
  count : Byte
  own   : Bool
  deriving DecidableEq, Repr

/-- The message unit (chapter 3). -/
structure Msu where
  frame        : FrameRecord
  /-- the settled slot (R59) -/
  slot         : Option Settled
  /-- the settled, void and discard counts, each 0..65535 (R79) -/
  settledCount : Nat
  voidCount    : Nat
  discardCount : Nat
  deriving DecidableEq, Repr

/-! ### Claim queue -/

/-- Where a request came from (R80). -/
inductive Source where
  | key (k : Fin 4)
  | companion (tag : Byte)
  deriving DecidableEq, Repr

/-- An outcome of a request (chapter 4, R213). -/
inductive QueueOutcome where
  | sent | failed | stale | replaced | merged | cancelled
  deriving DecidableEq, Repr

/-- One entry of the claim queue (R80). `order` is the place of its admission among all admissions, which R83 to R85
compare ("the latest-admitted one"). -/
structure Entry where
  source   : Source
  prio     : Nat
  req      : Request
  age      : Nat
  attempts : Nat
  inFlight : Bool
  order    : Nat
  deriving DecidableEq, Repr

/-- The four counts of a key index (R98). -/
structure KeyCounts where
  sent    : Nat
  failed  : Nat
  stale   : Nat
  dropped : Nat
  deriving DecidableEq, Repr

/-- The claim queue (chapter 4). -/
structure Cq where
  /-- the entries, head first (R81) -/
  entries : List Entry
  counts  : Vector KeyCounts 4
  /-- the number of admissions so far -/
  nextOrder : Nat
  deriving DecidableEq, Repr

/-! ### Zone engine, scene store, restatement generator -/

/-- An occupancy hold (R103). -/
structure Hold where
  remainder : Nat
  vacant    : Nat
  fade      : Fin 16
  deriving DecidableEq, Repr

/-- One record of the zone table (R103). -/
structure ZoneRecord where
  target     : Nat
  current    : Nat
  fade       : Nat
  lastOn     : Nat
  hold       : Option Hold
  unverified : Bool
  age        : Nat
  heard      : Bool
  deriving DecidableEq, Repr

/-- The values of a zone record after a cold reset (R127). -/
def ZoneRecord.cold : ZoneRecord := ⟨0, 0, 0, 1023, none, true, 0, false⟩

/-- The cause a ZONE report carries (R126, R213). -/
inductive ZoneCause where
  | statement | aged | holdEnd | fadeEnd
  deriving DecidableEq, Repr

/-- The zone engine (chapter 5). -/
structure Ze where
  zones    : Vector ZoneRecord 16
  /-- the failsafe count, 0..2040 (R123) -/
  failsafe : Nat
  deriving DecidableEq, Repr

/-- One entry of the scene table (R128). -/
structure SceneEntry where
  level      : Option Nat
  gen        : Byte
  correction : Bool
  deriving DecidableEq, Repr

/-- The empty entry of generation 0 with its mark clear (R128). -/
def SceneEntry.empty : SceneEntry := ⟨none, 0#8, false⟩

/-- The scene store (chapter 6): entries by scene and then zone, and the generation table. -/
structure Ss where
  entries : Vector (Vector SceneEntry 16) 16
  gens    : Vector Byte 16
  deriving DecidableEq, Repr

/-- The item a station presents (R138, R141): a correction of a pair, or a position of the rotation. Position `p` is
zone `p / 18`, slot `p % 18`: 0 is ZONE, 1 is HOLD, 2 + s is SCENE s. -/
inductive Item where
  | correction (scene zone : Fin 16)
  | rotation (position : Fin 288)
  deriving DecidableEq, Repr

/-- The restatement generator (R138). -/
structure Rg where
  cursor    : Fin 288
  gap       : Nat
  lastOwn   : Option Byte
  presented : Option Item
  deriving DecidableEq, Repr

/-! ### Output unit and key unit -/

/-- The output unit (chapter 7). -/
structure Ou where
  /-- the latched level of each channel (R154) -/
  latched  : Vector Nat 4
  /-- the frame basis, none before publication (R150) -/
  basis    : Option Nat
  /-- the frame position, in units of 1/32736 of a cell (R148) -/
  position : Nat
  /-- the cells counted since cell 0 of the current frame (R148) -/
  cells    : Nat
  deriving DecidableEq, Repr

/-- One key channel (R163). -/
structure KeyChannel where
  /-- the previous sample, `true` for ACTIVE -/
  previous : Option Bool
  pressed  : Bool
  age      : Nat
  long     : Bool
  repeats  : Nat
  /-- the dim direction is DOWN -/
  down     : Bool
  deriving DecidableEq, Repr

/-- A cleared key channel (R163). -/
def KeyChannel.cleared : KeyChannel := ⟨none, false, 0, false, 0, false⟩

/-- The key unit (chapter 8). -/
structure Ku where
  channels : Vector KeyChannel 4
  deriving DecidableEq, Repr

/-! ### Companion port -/

/-- The LINE events (R193, R213). -/
inductive LineEvent where
  | countSlip | disturbance | driveFault | duplicateNumber
  deriving DecidableEq, Repr

/-- A report with its contents (R193). -/
inductive Report where
  | commit (count claim : Byte) (kind : Nat) (data : List Byte)
  | outcome (tag : Byte) (o : QueueOutcome)
  | state (st : StationState) (cause : Cause)
  | member (number : Fin 32) (joined : Bool)
  | zone (z : Fin 16) (cause : ZoneCause) (target current : Nat)
  | line (ev : LineEvent) (count : Byte)
  deriving DecidableEq, Repr

/-- A queued report with the lost count and sequence number given at queuing (R194). -/
structure Queued where
  report : Report
  lost   : Nat
  seq    : Byte
  deriving DecidableEq, Repr

/-- The phase of the receive assembler (R179). -/
inductive AssemblerPhase where
  | hunt | length | collect
  deriving DecidableEq, Repr

/-- The receive assembler (R179): its phase, the length L, the bytes stored so far (type, tag, body), and the running
sum. -/
structure Assembler where
  phase  : AssemblerPhase
  need   : Nat
  stored : List Byte
  sum    : Byte
  deriving DecidableEq, Repr

/-- The assembler in HUNT with nothing held (R179). -/
def Assembler.hunting : Assembler := ⟨.hunt, 0, [], 0#8⟩

/-- A reply: its type byte with the overrun flag, its tag and its body (R182, R212). -/
structure Reply where
  type : Byte
  tag  : Byte
  body : List Byte
  deriving DecidableEq, Repr

/-- A frame under way on CTXD: whether it is the reply, and its bytes (R195). -/
structure Sending where
  isReply : Bool
  bytes   : List Byte
  deriving DecidableEq, Repr

/-- The companion port (chapter 9). -/
structure Cp where
  assembler : Assembler
  /-- the reply slot (R192) -/
  slot      : Option Reply
  /-- the overrun indication (R182) -/
  overrun   : Bool
  /-- the restart-pending indication (R191) -/
  restart   : Bool
  /-- the report queue, head first (R194) -/
  queue     : List Queued
  /-- the lost count, 0..255 (R194) -/
  lost      : Nat
  /-- the sequence number of the next queued report (R194) -/
  seq       : Byte
  /-- the subscription set: bit 0 COMMIT, 1 MEMBER, 2 STATE, 3 ZONE, 4 LINE (R190, R212) -/
  subs      : BitVec 5
  /-- the transmitter: IDLE, or the frame it sends (R195) -/
  sending   : Option Sending
  deriving DecidableEq, Repr

/-- The companion port after a cold reset (R197). -/
def Cp.cold : Cp := ⟨.hunting, none, false, false, [], 0, 0#8, 0#5, none⟩

/-! ### Configuration -/

/-- The settings of an output channel (R147): its zone or none, whether it is active-low, its divider and its phase
quarter. -/
structure OutputSettings where
  zone      : Option (Fin 16)
  activeLow : Bool
  divider   : Nat
  phase     : Fin 4
  deriving DecidableEq, Repr

/-- The function of a key channel (R162). -/
inductive KeyFunction where
  | off | toggleDim | scene | occupy | level
  deriving DecidableEq, Repr

/-- The settings of a key channel (R162); `param` is the 14-bit parameter. -/
structure KeySettings where
  func      : KeyFunction
  activeLow : Bool
  target    : Fin 16
  prio      : Nat
  fade      : Fin 16
  param     : Nat
  interval  : Nat
  deriving DecidableEq, Repr

/-- The fields of a published configuration block (R207 to R209). -/
structure Configuration where
  number      : Fin 32
  widthCode   : Nat
  frameLength : Nat
  restatement : Nat
  staleness   : Nat
  longPress   : Nat
  failDelay   : Nat
  failLevel   : Nat
  failFade    : Fin 16
  outputs     : Vector OutputSettings 4
  keys        : Vector KeySettings 4
  deriving DecidableEq, Repr

/-- What blocks that have no configuration report: number 0 and no tracked zone (R186, R103). -/
def Configuration.blank : Configuration :=
  ⟨0, 0, 0, 0, 0, 0, 0, 0, 0, Vector.replicate 4 ⟨none, false, 1, 0⟩, Vector.replicate 4 ⟨.off, false, 0, 0, 0, 0, 0⟩⟩

/-- The load state (R198). -/
inductive LoadState where
  | idle | reading | empty | held
  deriving DecidableEq, Repr

/-- The configuration loader (chapter 10): its load state, its block buffer, and the published configuration, which
every block reads from here. -/
structure Cl where
  load   : LoadState
  buffer : List Byte
  config : Option Configuration
  deriving DecidableEq, Repr

/-! ### The station -/

/-- The L416 and the queue of commands that wait. -/
structure State where
  lc      : Lc
  mu      : Mu
  msu     : Msu
  cq      : Cq
  ze      : Ze
  ss      : Ss
  rg      : Rg
  ou      : Ou
  ku      : Ku
  cp      : Cp
  cl      : Cl
  pending : List Instr
  deriving DecidableEq, Repr

/-- No command of the L416 stops the machine: the spec gives every happening an effect, or has the station not take it.
So no fault is ever raised. -/
inductive Fault
  deriving DecidableEq, Repr

/-- Why a command has no outcome. -/
inductive Refusal where
  /-- Raised by `exec` alone, for a command that has no meaning yet. Safe: the machine stops where the part goes on. -/
  | notModelled (mnemonic : String)
  deriving DecidableEq, Repr

/-! ### Cold values -/

/-- LC after a cold reset (R28). -/
def Lc.cold : Lc where
  drive := .released
  markable := false
  running := 0
  framed := false
  timer := 0
  count := 0#8
  slips := 0
  driveFault := false
  disturbance := false
  claimEmpty := false
  silence := 0
  silencePart := 0
  clear := 0
  pullLength := 0
  measured := 0
  fresh := false
  pullHanded := false
  nextCell := 3
  countSending := true
  countBits := []
  countRead := false
  claimOpen := false
  contest := none
  claimBits := []

/-- MU after a cold reset (R30). -/
def Mu.cold : Mu where
  station := .reset
  score := 0
  members := Vector.replicate 32 .absent
  lastCount := none
  pairHeld := false
  ownFree := false
  faultBefore := false
  memberFrame := false
  activeFrame := false
  raised := false

/-- MSU after a cold reset (R59, R79). -/
def Msu.cold : Msu := ⟨.cleared .noFrame, none, 0, 0, 0⟩

/-- CQ after a cold reset (R98, R101). -/
def Cq.cold : Cq := ⟨[], Vector.replicate 4 ⟨0, 0, 0, 0⟩, 0⟩

/-- ZE after a cold reset (R127). -/
def Ze.cold : Ze := ⟨Vector.replicate 16 .cold, 0⟩

/-- SS after a cold reset (R128, R129). -/
def Ss.cold : Ss := ⟨Vector.replicate 16 (Vector.replicate 16 .empty), Vector.replicate 16 0#8⟩

/-- RG after a cold reset and after a warm restart (R138). -/
def Rg.cold : Rg := ⟨0, 64, none, none⟩

/-- OU after a cold reset (R159, R160). -/
def Ou.cold : Ou := ⟨Vector.replicate 4 0, none, 0, 0⟩

/-- KU after a cold reset and after a warm restart (R163, R177). -/
def Ku.cold : Ku := ⟨Vector.replicate 4 .cleared⟩

/-- CL after a cold reset (R198). -/
def Cl.cold : Cl := ⟨.idle, [], none⟩

/-- The station right after reset: RESET, every block at its cold values (R30), and no command waiting. -/
def State.reset : State :=
  ⟨.cold, .cold, .cold, .cold, .cold, .cold, .cold, .cold, .cold, .cold, .cold, []⟩

/-! ### Updates, one per block -/

def State.setLc (s : State) (x : Lc) : State := { s with lc := x }
def State.setMu (s : State) (x : Mu) : State := { s with mu := x }
def State.setMsu (s : State) (x : Msu) : State := { s with msu := x }
def State.setCq (s : State) (x : Cq) : State := { s with cq := x }
def State.setZe (s : State) (x : Ze) : State := { s with ze := x }
def State.setSs (s : State) (x : Ss) : State := { s with ss := x }
def State.setRg (s : State) (x : Rg) : State := { s with rg := x }
def State.setOu (s : State) (x : Ou) : State := { s with ou := x }
def State.setKu (s : State) (x : Ku) : State := { s with ku := x }
def State.setCp (s : State) (x : Cp) : State := { s with cp := x }
def State.setCl (s : State) (x : Cl) : State := { s with cl := x }
def State.setPending (s : State) (x : List Instr) : State := { s with pending := x }

/-- The station state (R29). -/
abbrev State.station (s : State) : StationState := s.mu.station

/-- The published configuration, or the blank one before publication (R186, R205). -/
def State.conf (s : State) : Configuration := s.cl.config.getD .blank

end Sys2Proof.Machine
end

