-- ==== Sys2Proof/Machine/Bits.lean ====
section
/-! DEFINITION. Bit runs as the line carries them, and the 8-bit check of R58. -/

namespace Sys2Proof.Machine

/-- The number a run of bits carries, most significant bit first (R210). -/
def natOfBits (l : List Bool) : Nat := l.foldl (fun n b => 2 * n + b.toNat) 0

/-- The `w` low bits of `n`, most significant bit first (R210). -/
def bitsOfNat : Nat → Nat → List Bool
  | 0, _ => []
  | w + 1, n => n.testBit w :: bitsOfNat w n

/-- The eight bits of a byte, most significant bit first (R210). -/
def bitsOfByte (b : Byte) : List Bool := bitsOfNat 8 b.toNat

/-- The byte that the first eight bits of a run make (R210). -/
def byteOfBits (l : List Bool) : Byte := BitVec.ofNat 8 (natOfBits (l.take 8))

/-- A run of bits as bytes, eight bits to a byte in line order; `n` is the number of bytes (R210). -/
def bytesOfBits : Nat → List Bool → List Byte
  | 0, _ => []
  | n + 1, l => byteOfBits l :: bytesOfBits n (l.drop 8)

/-- Bytes as a run of bits in line order (R210). -/
def bitsOfBytes (l : List Byte) : List Bool := l.flatMap bitsOfByte

/-- The field at positions `a` to `b` of a run, counted from 1 (R210). -/
def fieldOf (l : List Bool) (a b : Nat) : Nat := natOfBits ((l.drop (a - 1)).take (b + 1 - a))

/-- The flag at position `a` of a run, counted from 1: 1 is PRESENT (R210). -/
def flagOf (l : List Bool) (a : Nat) : Bool := (l.drop (a - 1)).headD false

/-- A 10-bit two's-complement number (R210). -/
def signed10 (n : Nat) : Int := if n < 512 then (n : Int) else (n : Int) - 1024

/-- The 10-bit two's-complement carriage of a step (R210). -/
def carried10 (i : Int) : Nat := (i % 1024).toNat

/-- A two-byte field of a companion body, high byte first (R212). -/
def wordBytes (n : Nat) : List Byte := [BitVec.ofNat 8 (n / 256), BitVec.ofNat 8 n]

/-- One step of the check register: the leftmost place is compared with the bit, every place moves one leftward, and
the three rightmost are inverted when they differed (R58). -/
def checkStep (r : Byte) (b : Bool) : Byte := if r.msb != b then (r <<< 1) ^^^ 7#8 else r <<< 1

/-- The check register after a run of bits, from a given start (R58). -/
def checkFrom (r : Byte) (l : List Bool) : Byte := l.foldl checkStep r

/-- The check code of a run of bits (R58, R202). -/
def checkCode (l : List Bool) : Byte := checkFrom 0xFF#8 l

/-- Serial comparison of generations: `g1` is newer than `g2` (00_scope section 6). -/
def newer (g1 g2 : Byte) : Bool :=
  decide (1 ≤ (g1 - g2).toNat) && decide ((g1 - g2).toNat ≤ 128)

end Sys2Proof.Machine
end

