-- ==== Sys2Proof/Machine/Operands.lean ====
section
/-! DEFINITION. The forms in which messages, requests and the configuration block reach the station: the data layout of
each kind (R56, R57, R210), the SEND body (R185, R212) and the configuration block (R201, R207 to R209, R211). -/

namespace Sys2Proof.Machine

/-! ### Message kinds -/

/-- The data length n of a kind, in bytes (R56). -/
def dataLength : Nat → Nat
  | 0 => 3 | 1 => 2 | 2 => 1 | 3 => 1 | 4 => 1 | 5 => 2 | 6 => 3 | 7 => 7 | 8 => 5 | 9 => 4
  | _ => 0

/-- The positions of the spare bits of a kind's data, first and last counted from 1; none is (1, 0) (R210). -/
def spareBits : Nat → Nat × Nat
  | 0 => (19, 24) | 1 => (15, 16) | 3 => (5, 8) | 5 => (5, 8) | 6 => (23, 24)
  | 7 => (51, 56) | 8 => (36, 40) | 9 => (28, 32)
  | _ => (1, 0)

/-- The kind of a message (R56). -/
def Msg.kind : Msg → Nat
  | .level .. => 0 | .step .. => 1 | .toggle .. => 2 | .halt .. => 3 | .recall .. => 4 | .capture .. => 5
  | .occupy .. => 6 | .zoneStatement .. => 7 | .holdStatement .. => 8 | .sceneStatement .. => 9

/-- The data run of a message, spare bits 0 (R62, R210). -/
def Msg.bits : Msg → List Bool
  | .level z c l => bitsOfNat 4 z ++ bitsOfNat 4 c ++ bitsOfNat 10 l ++ bitsOfNat 6 0
  | .step z d => bitsOfNat 4 z ++ bitsOfNat 10 (carried10 d) ++ bitsOfNat 2 0
  | .toggle z c => bitsOfNat 4 z ++ bitsOfNat 4 c
  | .halt z => bitsOfNat 4 z ++ bitsOfNat 4 0
  | .recall s c => bitsOfNat 4 s ++ bitsOfNat 4 c
  | .capture s g => bitsOfNat 4 s ++ bitsOfNat 4 0 ++ bitsOfByte g
  | .occupy z k c v => bitsOfNat 4 z ++ bitsOfNat 4 k ++ bitsOfNat 4 c ++ bitsOfNat 10 v ++ bitsOfNat 2 0
  | .zoneStatement z t c r l =>
    bitsOfNat 4 z ++ bitsOfNat 10 t ++ bitsOfNat 10 c ++ bitsOfNat 16 r ++ bitsOfNat 10 l ++ bitsOfNat 6 0
  | .holdStatement z p r v c =>
    bitsOfNat 4 z ++ [p] ++ bitsOfNat 16 r ++ bitsOfNat 10 v ++ bitsOfNat 4 c ++ bitsOfNat 5 0
  | .sceneStatement s z g p l =>
    bitsOfNat 4 s ++ bitsOfNat 4 z ++ bitsOfByte g ++ [p] ++ bitsOfNat 10 l ++ bitsOfNat 5 0

/-- The four-bit number at position `a` of a run, a zone, a scene or a code (R210). -/
def nibbleOf (l : List Bool) (a : Nat) : Fin 16 := Fin.ofNat 16 (fieldOf l a (a + 3))

/-- The message a kind and data run carry; none for an unassigned kind (R56, R210). -/
def readMsg (kind : Nat) (l : List Bool) : Option Msg :=
  match kind with
  | 0 => some (.level (nibbleOf l 1) (nibbleOf l 5) (fieldOf l 9 18))
  | 1 => some (.step (nibbleOf l 1) (signed10 (fieldOf l 5 14)))
  | 2 => some (.toggle (nibbleOf l 1) (nibbleOf l 5))
  | 3 => some (.halt (nibbleOf l 1))
  | 4 => some (.recall (nibbleOf l 1) (nibbleOf l 5))
  | 5 => some (.capture (nibbleOf l 1) (BitVec.ofNat 8 (fieldOf l 9 16)))
  | 6 => some (.occupy (nibbleOf l 1) (nibbleOf l 5) (nibbleOf l 9) (fieldOf l 13 22))
  | 7 => some (.zoneStatement (nibbleOf l 1) (fieldOf l 5 14) (fieldOf l 15 24) (fieldOf l 25 40) (fieldOf l 41 50))
  | 8 => some (.holdStatement (nibbleOf l 1) (flagOf l 5) (fieldOf l 6 21) (fieldOf l 22 31) (nibbleOf l 32))
  | 9 => some (.sceneStatement (nibbleOf l 1) (nibbleOf l 5) (BitVec.ofNat 8 (fieldOf l 9 16)) (flagOf l 17)
      (fieldOf l 18 27))
  | _ => none

/-- A spare bit of the data reads 1 (R57). -/
def spareSet (kind : Nat) (l : List Bool) : Bool :=
  fieldOf l (spareBits kind).1 (spareBits kind).2 != 0

/-- A field of a message is outside its range, or its fields do not agree (R57). -/
def Msg.outOfRange : Msg → Bool
  | .step _ d => d == 0 || d == -512
  | .zoneStatement _ t c r l => decide (32768 < r) || (r == 0 && c != t) || l == 0
  | .holdStatement _ p r v c =>
    decide (61440 < r) || (!p && (r != 0 || v != 0 || c != 0)) || (p && r == 0)
  | .sceneStatement _ _ _ p l => !p && l != 0
  | _ => false

/-- The data of a message is malformed (R57); an unassigned kind has no data to judge. -/
def malformed (kind : Nat) (l : List Bool) : Bool :=
  match readMsg kind l with
  | none => false
  | some m => spareSet kind l || m.outOfRange

/-- The message a request becomes when it is sent, a CAPTURE with its generation (R90). -/
def Request.toMsg (gen : Fin 16 → Byte) : Request → Msg
  | .level z c l => .level z c l
  | .step z d => .step z d
  | .toggle z c => .toggle z c
  | .halt z => .halt z
  | .recall s c => .recall s c
  | .capture s => .capture s (gen s)
  | .occupy z k c v => .occupy z k c v

/-- The request a settled-kind message asks for: the message without a CAPTURE's generation (R80). -/
def Msg.toRequest : Msg → Option Request
  | .level z c l => some (.level z c l)
  | .step z d => some (.step z d)
  | .toggle z c => some (.toggle z c)
  | .halt z => some (.halt z)
  | .recall s c => some (.recall s c)
  | .capture s _ => some (.capture s)
  | .occupy z k c v => some (.occupy z k c v)
  | _ => none

/-! ### The SEND body (R182, R185, R212) -/

/-- The body length of a SEND of the given kind (R182). -/
def sendLength (kind : Nat) : Nat := if kind = 5 then 3 else 2 + dataLength kind

/-- The body has the length R182 gives a SEND: at least 2 bytes, and the length of its kind when that is 0..6. -/
def sendLengthOk (body : List Byte) : Bool :=
  decide (2 ≤ body.length) &&
    (decide (6 < (body.getD 1 0#8).toNat) || body.length == sendLength (body.getD 1 0#8).toNat)

/-- The lowest body index at fault in a SEND (R185): the priority at 0, the kind at 1, the STEP value at 2, and a spare
bit at the byte that holds it. -/
def sendFault (body : List Byte) : Option Nat :=
  let kind := (body.getD 1 0#8).toNat
  let run := bitsOfBytes (body.drop 2)
  if 5 < (body.getD 0 0#8).toNat then some 0
  else if 6 < kind then some 1
  else if kind = 1 ∧ (fieldOf run 5 14 = 0 ∨ fieldOf run 5 14 = 512) then some 2
  else if spareSet kind run then some (2 + ((spareBits kind).1 - 1) / 8)
  else none

/-- The request a SEND body carries (R185). -/
def sendRequest (body : List Byte) : Option Request :=
  (readMsg (body.getD 1 0#8).toNat (bitsOfBytes (body.drop 2))).bind Msg.toRequest

/-! ### The configuration block (R201, R207 to R209, R211) -/

/-- Byte `i` of a block; past the end of a block, which no judged block has, an open MDIN's FFh (R200). -/
def blockByte (b : List Byte) (i : Nat) : Nat := (b.getD i 0xFF#8).toNat

/-- The two bytes at `i` as one number, the first byte high (R211). -/
def blockWord (b : List Byte) (i : Nat) : Nat := 256 * blockByte b i + blockByte b (i + 1)

/-- A key record's byte is at fault (R209, R211): record at byte `r`, byte `r + k`. -/
def keyByteFault (b : List Byte) (r k : Nat) : Bool :=
  let f := blockByte b r / 32
  let p := blockWord b (r + 2) % 16384
  if f = 0 then blockByte b (r + k) != 0
  else match k with
    | 0 => decide (4 < f)
    | 1 => decide (5 < blockByte b (r + 1) / 32) || blockByte b (r + 1) / 16 % 2 != 0
    | 2 => blockByte b (r + 2) / 64 != 0 || (f == 1 && (p == 0 || decide (511 < p))) || (f == 2 && p != 0)
        || (f == 4 && decide (1023 < p))
    | 3 => false
    | _ => blockByte b (r + 4) == 0

/-- An output record's byte is at fault (R208, R211): record at byte `r`, byte `r + k`. -/
def outputByteFault (b : List Byte) (r k : Nat) : Bool :=
  match k with
  | 0 => blockByte b r / 16 % 8 != 0 || (decide (blockByte b r < 128) && blockByte b r % 16 != 0)
  | _ => blockByte b (r + 1) % 8 != 0

/-- Byte `i` of a block is at fault (R201, R207 to R209, R211). -/
def byteFault (b : List Byte) (i : Nat) : Bool :=
  let v := blockByte b i
  match i with
  | 0 => v != Config.formatId.toNat
  | 1 => decide (31 < v)
  | 2 => v == 0 || decide (8 < v)
  | 3 => decide (v < 96)
  | 4 => decide (v < 4) || decide (64 < v)
  | 5 => decide (v < 16)
  | 6 => decide (v < 8)
  | 7 => v == 0
  | 8 => v / 64 != 0
  | 9 => false
  | 38 => v != (checkCode (bitsOfBytes (b.take 38))).toNat
  | n => if n < 18 then outputByteFault b (10 + (n - 10) / 2 * 2) ((n - 10) % 2)
         else keyByteFault b (18 + (n - 18) / 5 * 5) ((n - 18) % 5)

/-- The fault index of a block: the lowest-numbered byte at fault, or none for a valid block (R201). -/
def faultIndex (b : List Byte) : Option Nat := (List.range Config.blockLength).find? (byteFault b)

/-- The settings in the output record at byte `r` (R208, R211). -/
def readOutput (b : List Byte) (r : Nat) : OutputSettings where
  zone := if blockByte b r < 128 then none else some (Fin.ofNat 16 (blockByte b r))
  activeLow := decide (128 ≤ blockByte b (r + 1))
  divider := 2 ^ (blockByte b (r + 1) / 32 % 4)
  phase := Fin.ofNat 4 (blockByte b (r + 1) / 8)

/-- The key function of a code (R211). -/
def keyFunction : Nat → KeyFunction
  | 1 => .toggleDim | 2 => .scene | 3 => .occupy | 4 => .level
  | _ => .off

/-- The settings in the key record at byte `r` (R209, R211). -/
def readKey (b : List Byte) (r : Nat) : KeySettings where
  func := keyFunction (blockByte b r / 32)
  activeLow := blockByte b r / 16 % 2 == 1
  target := Fin.ofNat 16 (blockByte b r)
  prio := blockByte b (r + 1) / 32
  fade := Fin.ofNat 16 (blockByte b (r + 1))
  param := blockWord b (r + 2) % 16384
  interval := blockByte b (r + 4)

/-- The fields of a block (R207 to R209, R211). -/
def readBlock (b : List Byte) : Configuration where
  number := Fin.ofNat 32 (blockByte b 1)
  widthCode := blockByte b 2
  frameLength := blockByte b 3
  restatement := blockByte b 4
  staleness := blockByte b 5
  longPress := blockByte b 6
  failDelay := blockByte b 7
  failLevel := blockWord b 8 % 1024
  failFade := Fin.ofNat 16 (blockWord b 8 / 1024)
  outputs := Vector.ofFn fun (k : Fin 4) => readOutput b (10 + 2 * k)
  keys := Vector.ofFn fun (k : Fin 4) => readKey b (18 + 5 * k)

/-! ### What the configuration means -/

/-- The own cell width in nanoseconds (R3, R207). -/
def Configuration.ownWidth (c : Configuration) : Nat := c.widthCode * Config.widthStep

/-- The founding threshold of the silence count: three own frame lengths, in own cell widths (R34). -/
def Configuration.foundingWidths (c : Configuration) : Nat := 3 * c.frameLength

/-- Zone `z` is tracked: an output record names it (R103, R208). -/
def Configuration.tracks (c : Configuration) (z : Fin 16) : Bool := c.outputs.toList.any fun o => o.zone == some z

/-- The set of tracked zones, bit z for zone z (R51, R103). -/
def Configuration.trackedSet (c : Configuration) : BitVec 16 :=
  (List.finRange 16).foldl (fun v z => if c.tracks z then v ||| (1#16 <<< z.val) else v) 0#16

/-- The output channels assigned to zone `z`, bit k for channel k (R187, R212). -/
def Configuration.channelSet (c : Configuration) (z : Fin 16) : Nat :=
  (List.finRange 4).foldl (fun n k => if c.outputs[k].zone == some z then n + 2 ^ k.val else n) 0

/-- frames(c): 0 for fade code 0, and 2 to the power c otherwise (R102). -/
def frames (c : Fin 16) : Nat := if c = 0 then 0 else 2 ^ c.val

/-- The frames of a hold code: 4096 × k (R102). -/
def holdFrames (k : Fin 16) : Nat := 4096 * k.val

end Sys2Proof.Machine
end

