-- ==== Sys2Proof/Machine/Keys.lean ====
section
/-! DEFINITION. The key unit's rules for one channel (chapter 8). -/

namespace Sys2Proof.Machine

/-- The hold code of an OCCUPY key, bits 13–10 of its parameter (R211). -/
def KeySettings.holdCode (c : KeySettings) : Fin 16 := Fin.ofNat 16 (c.param / 1024)

/-- The vacant level of an OCCUPY key, bits 9–0 of its parameter (R211). -/
def KeySettings.vacant (c : KeySettings) : Nat := c.param % 1024

/-- The STEP of a TOGGLE-DIM channel in its dim direction (R169). -/
def KeySettings.stepRequest (c : KeySettings) (down : Bool) : Request :=
  .step c.target (if down then -(c.param : Int) else c.param)

/-- The OCCUPY of an OCCUPY channel (R172). -/
def KeySettings.occupyRequest (c : KeySettings) : Request := .occupy c.target c.holdCode c.fade c.vacant

/-- The request a press gives (R168, R171 to R173). -/
def KeySettings.pressRequest (c : KeySettings) : Option Request :=
  match c.func with
  | .occupy => some c.occupyRequest
  | .level => some (.level c.target c.fade c.param)
  | _ => none

/-- The request a release gives; a long one gives none (R168, R170, R171). -/
def KeySettings.releaseRequest (c : KeySettings) (long : Bool) : Option Request :=
  match c.func with
  | .toggleDim => if long then none else some (.toggle c.target c.fade)
  | .scene => if long then none else some (.recall c.target c.fade)
  | _ => none

/-- The request given when the long-press threshold is reached (R169, R171). -/
def KeySettings.thresholdRequest (c : KeySettings) (down : Bool) : Option Request :=
  match c.func with
  | .toggleDim => some (c.stepRequest down)
  | .scene => some (.capture c.target)
  | _ => none

/-- The request given when a repeat falls due (R169, R172). -/
def KeySettings.repeatRequest (c : KeySettings) (down : Bool) : Option Request :=
  match c.func with
  | .toggleDim => some (c.stepRequest down)
  | .occupy => some c.occupyRequest
  | _ => none

/-- The press age after one more mark (R166). -/
def KeyChannel.nextAge (k : KeyChannel) : Nat := min Config.maxByte (k.age + 1)

/-- The next mark of the press reaches the long-press threshold (R166). -/
def KeyChannel.reaches (k : KeyChannel) (threshold : Nat) : Bool := !k.long && k.nextAge == threshold

/-- The repeat count runs: long press was already yes, or the channel is an OCCUPY channel (R166). -/
def KeyChannel.counts (k : KeyChannel) (c : KeySettings) : Bool := k.long || c.func == .occupy

/-- A repeat falls due at the next mark of the press (R166). -/
def KeyChannel.repeatsNext (k : KeyChannel) (c : KeySettings) : Bool :=
  k.counts c && decide (c.interval ≤ k.repeats + 1)

/-- A mark of a press in which neither a press nor a release is taken, with the request it gives (R166). A channel gives
at most one: a TOGGLE-DIM repeat counts from the mark after the threshold, and an OCCUPY threshold gives nothing. -/
def KeyChannel.hold (k : KeyChannel) (c : KeySettings) (threshold : Nat) : KeyChannel × Option Request :=
  ({ k with
      age := k.nextAge
      long := k.long || k.reaches threshold
      repeats := if k.repeatsNext c then 0 else if k.counts c then k.repeats + 1 else k.repeats },
    if k.reaches threshold && (c.thresholdRequest k.down).isSome then c.thresholdRequest k.down
    else if k.repeatsNext c then c.repeatRequest k.down else none)

/-- A press is taken (R165, R166). -/
def KeyChannel.press (k : KeyChannel) (c : KeySettings) : KeyChannel × Option Request :=
  ({ k with pressed := true, age := 0, long := false, repeats := 0 }, c.pressRequest)

/-- A release is taken; a TOGGLE-DIM channel's direction changes after a long press (R165, R166, R170). -/
def KeyChannel.release (k : KeyChannel) (c : KeySettings) : KeyChannel × Option Request :=
  ({ k with pressed := false, down := if c.func == .toggleDim && k.long then !k.down else k.down },
    c.releaseRequest k.long)

/-- The sample a pin level gives: ACTIVE when it is the channel's active level (R164). -/
def KeySettings.sample (c : KeySettings) (high : Bool) : Bool := high != c.activeLow

/-- One channel at a frame mark: it samples its pin, debounces and steps its press; an OFF channel does nothing
(R164 to R166, R175). -/
def KeyChannel.atMark (k : KeyChannel) (c : KeySettings) (threshold : Nat) (high : Bool) :
    KeyChannel × Option Request :=
  if c.func = .off then (k, none)
  else
    let now := c.sample high
    let out :=
      if now != k.pressed && k.previous == some now then (if now then k.press c else k.release c)
      else if k.pressed then k.hold c threshold
      else (k, none)
    ({ out.1 with previous := some now }, out.2)

end Sys2Proof.Machine
end

