-- ==== Sys2Proof/Machine/Port.lean ====
section
/-! DEFINITION. The companion port's own operations (chapter 9, R212, R213): codes, frames, the reply slot, the report
queue and the transmitter. -/

namespace Sys2Proof.Machine

/-! ### Codes -/

/-- The state code of QUERY STATION and STATE reports (R212, R213). -/
def StationState.code : StationState → Byte
  | .reset => 0 | .loading => 1 | .unconfigured => 2 | .listening => 3 | .active => 4 | .muted => 5 | .lineFault => 6

/-- The cause code of a STATE report (R213). -/
def Cause.code : Cause → Byte
  | .coldStart => 1 | .loaded => 2 | .noConfiguration => 3 | .configured => 4 | .founded => 5 | .joined => 6
  | .scoreHigh => 7 | .scoreLow => 8 | .stuckPull => 9 | .driveFaults => 10 | .lineClear => 11 | .restart => 12

/-- The outcome code of an OUTCOME report (R213). -/
def QueueOutcome.code : QueueOutcome → Byte
  | .sent => 1 | .failed => 2 | .stale => 3 | .replaced => 4 | .merged => 5 | .cancelled => 6

/-- The cause code of a ZONE report (R213). -/
def ZoneCause.code : ZoneCause → Byte
  | .statement => 1 | .aged => 2 | .holdEnd => 3 | .fadeEnd => 4

/-- The event code of a LINE report (R213). -/
def LineEvent.code : LineEvent → Byte
  | .countSlip => 1 | .disturbance => 2 | .driveFault => 3 | .duplicateNumber => 4

/-- The type code of a report frame (R212). -/
def Report.typeCode : Report → Byte
  | .commit .. => 0x90 | .outcome .. => 0x91 | .state .. => 0x92 | .member .. => 0x93 | .zone .. => 0x94
  | .line .. => 0x95

/-- The bytes of a report body after the lost count (R213). -/
def Report.fields : Report → List Byte
  | .commit c cl k d => [c, cl, BitVec.ofNat 8 k] ++ d
  | .outcome t o => [t, o.code]
  | .state st c => [st.code, c.code]
  | .member n j => [BitVec.ofNat 8 n, if j then 1 else 2]
  | .zone z c t u => [BitVec.ofNat 8 z, c.code] ++ wordBytes t ++ wordBytes u
  | .line e c => [e.code, c]

/-- The bit of the subscription set that holds the report's class; an OUTCOME has none (R190, R193, R212). -/
def Report.classBit : Report → Option Nat
  | .commit .. => some 0 | .member .. => some 1 | .state .. => some 2 | .zone .. => some 3 | .line .. => some 4
  | .outcome .. => none

/-! ### Frames (R178, R212) -/

/-- The check byte: it makes the bytes from the length to the check sum to 0 modulo 256 (R212). -/
def frameCheck (l : List Byte) : Byte := 0#8 - l.foldl (· + ·) 0#8

/-- A companion frame: start byte, length, type, tag, body, check (R212). -/
def frameBytes (type tag : Byte) (body : List Byte) : List Byte :=
  let inner := BitVec.ofNat 8 (body.length + 2) :: type :: tag :: body
  Config.startByte :: inner ++ [frameCheck inner]

/-- The bits of one byte on CRXD or CTXD: a low start bit, the data least significant bit first, a high stop bit
(R178). -/
def serialBits (b : Byte) : List Bool := false :: (bitsOfByte b).reverse ++ [true]

/-- The frame of a queued report: the sequence number as tag, the lost count as byte 0 of the body (R195, R213). -/
def Queued.frame (q : Queued) : List Byte :=
  frameBytes q.report.typeCode q.seq (BitVec.ofNat 8 q.lost :: q.report.fields)

/-- The frame of a reply (R195, R212). -/
def Reply.frame (r : Reply) : List Byte := frameBytes r.type r.tag r.body

/-! ### The transmitter (R195) -/

/-- The transmitter's choice: the reply in the slot, otherwise the head of the report queue, otherwise IDLE. It is
made when the transmitter is IDLE, so a reply in the slot has not been sent (R195). -/
def Cp.choose (cp : Cp) : Cp :=
  match cp.slot, cp.queue with
  | some r, _ => { cp with sending := some ⟨true, r.frame⟩ }
  | none, q :: rest => { cp with queue := rest, sending := some ⟨false, q.frame⟩ }
  | none, [] => { cp with sending := none }

/-- An IDLE transmitter chooses as soon as something is available; one that sends goes on (R195). -/
def Cp.kick (cp : Cp) : Cp := if cp.sending.isNone then cp.choose else cp

/-! ### Reports (R193, R194) -/

/-- The report's class is subscribed, or it is an OUTCOME (R193). -/
def Cp.wants (cp : Cp) (r : Report) : Bool :=
  match r.classBit with
  | none => true
  | some b => cp.subs.getLsbD b

/-- A report CP decides to queue: added with the lost count and sequence number, or discarded and counted (R194). -/
def Cp.enqueue (cp : Cp) (r : Report) : Cp :=
  if cp.queue.length < Config.maxReports then
    { cp with queue := cp.queue ++ [⟨r, cp.lost, cp.seq⟩], lost := 0, seq := cp.seq + 1 }
  else { cp with lost := min Config.maxByte (cp.lost + 1) }

/-- A report is offered (R193); an IDLE transmitter takes it at once (R195). -/
def Cp.offer (cp : Cp) (r : Report) : Cp := if cp.wants r then (cp.enqueue r).kick else cp

/-- Reports are offered in order. -/
def Cp.offerAll (cp : Cp) (l : List Report) : Cp := l.foldl Cp.offer cp

/-! ### Replies (R182, R192) -/

/-- A reply is made and placed in the slot. It carries the overrun flag in bit 6 of its type, and making it clears the
indication (R182, R212); an IDLE transmitter takes it at once (R195). -/
def Cp.reply (cp : Cp) (type tag : Byte) (body : List Byte) : Cp :=
  { cp with slot := some ⟨if cp.overrun then type ||| 0x40#8 else type, tag, body⟩, overrun := false }.kick

/-- The reasons of a REFUSE (R212). -/
inductive Reason where
  | unknownType | badLength | badField (index : Nat) | notConfigured | alreadyConfigured | loading | outboxFull
  deriving DecidableEq, Repr

/-- The body of a REFUSE: the reason, and the fault index of BAD FIELD (R212). -/
def Reason.body : Reason → List Byte
  | .unknownType => [1, 0] | .badLength => [2, 0] | .badField i => [3, BitVec.ofNat 8 i]
  | .notConfigured => [4, 0] | .alreadyConfigured => [5, 0] | .loading => [6, 0] | .outboxFull => [7, 0]

/-- ACCEPT with a body (R212). -/
def Cp.accept (cp : Cp) (tag : Byte) (body : List Byte) : Cp := cp.reply 0x81 tag body

/-- REFUSE with a reason (R212). -/
def Cp.refuse (cp : Cp) (tag : Byte) (r : Reason) : Cp := cp.reply 0x82 tag r.body

/-- A LINK ERROR is to be answered: it is placed in an empty slot; at a full slot the overrun indication is set
(R181, R182). -/
def Cp.linkError (cp : Cp) : Cp := if cp.slot.isSome then { cp with overrun := true } else cp.reply 0x83 0 []

end Sys2Proof.Machine
end

