-- ==== Sys2Proof/Machine/Outputs.lean ====
section
/-! DEFINITION. The output unit's rules (chapter 7). Positions and lengths are counted in units of 1/32736 of a cell, in
which every one of them is a whole number. -/

namespace Sys2Proof.Machine

/-- The position at which cell `k` of a frame begins, k − 7/8, for k of 1 or more (R148). -/
def cellPosition (k : Nat) : Nat := (8 * k - 7) * (Config.unitsPerCell / 8)

/-- The length P of a channel's periods: the frame basis divided by the divider (R151). -/
def OutputSettings.period (o : OutputSettings) (basis : Nat) : Nat := basis * (Config.unitsPerCell / o.divider)

/-- The phase offset: the phase quarter times P / 4 (R152). -/
def OutputSettings.offset (o : OutputSettings) (basis : Nat) : Nat := o.phase.val * (o.period basis / 4)

/-- The asserted length A = P × L / 1023 (R152). -/
def OutputSettings.assertedLength (o : OutputSettings) (basis level : Nat) : Nat :=
  o.period basis * level / Config.maxLevel

/-- The channel is asserted at a frame position (R152). -/
def OutputSettings.asserted (o : OutputSettings) (basis level position : Nat) : Bool :=
  let p := o.period basis
  let start := o.offset basis
  let fin := start + o.assertedLength basis level
  let x := position % p
  if fin ≤ p then decide (start ≤ x) && decide (x < fin) else decide (start ≤ x) || decide (x < fin - p)

/-- An edge of the channel's asserted interval stands at a frame position: the interval's start and end, and the
period's start when it wraps; a level of 0 or 1023 has none (R152). -/
def OutputSettings.edgeAt (o : OutputSettings) (basis level position : Nat) : Bool :=
  let p := o.period basis
  let start := o.offset basis
  let fin := start + o.assertedLength basis level
  let x := position % p
  decide (0 < level) && decide (level < Config.maxLevel)
    && (x == start || x == fin % p || (decide (p < fin) && x == 0))

/-- The level of an output pin (R153). -/
inductive PinLevel where
  | highImpedance | high | low
  deriving DecidableEq, Repr

/-- The level of a driving pin from its channel's condition and polarity (R153). -/
def OutputSettings.pin (o : OutputSettings) (asserted : Bool) : PinLevel := if asserted != o.activeLow then .high else .low

/-- The station drives its outputs and takes frame marks: every state but RESET, LOADING and UNCONFIGURED (R153,
R176). -/
def StationState.running : StationState → Bool
  | .listening | .active | .muted | .lineFault => true
  | .reset | .loading | .unconfigured => false

/-- The level of pin DIM`ch` (R153). -/
def State.dimPin (s : State) (ch : Fin 4) : PinLevel :=
  if s.station.running then
    let o := s.conf.outputs[ch]
    o.pin (o.asserted (s.ou.basis.getD 0) s.ou.latched[ch] s.ou.position)
  else .highImpedance

/-- A frame mark's kind, as R15, R16 and R150 tell them apart. -/
inductive MarkKind where
  | issued | founding | normal | unframed | cutShort | local_
  deriving DecidableEq, Repr

/-- The frame basis after a mark (R150); `held` is the number of cells the ended frame held. -/
def basisAfter (k : MarkKind) (held own : Nat) (basis : Option Nat) : Option Nat :=
  match k with
  | .issued | .founding | .local_ => some own
  | .normal => if Config.minBasis ≤ held then some (min Config.maxByte held) else basis
  | .unframed | .cutShort => basis

/-- Each assigned channel latches the current level of its zone; an unassigned one stands at 0 (R154). -/
def latch (c : Configuration) (zones : Vector ZoneRecord 16) : Vector Nat 4 :=
  Vector.ofFn fun (ch : Fin 4) =>
    match c.outputs[ch].zone with
    | some z => zones[z].current
    | none => 0

/-- The output unit at a mark: basis, position 0, and the latch (R148, R150, R154, R156). -/
def Ou.atMark (ou : Ou) (c : Configuration) (k : MarkKind) (zones : Vector ZoneRecord 16) : Ou where
  latched := latch c zones
  basis := basisAfter k ou.cells c.frameLength ou.basis
  position := 0
  cells := 0

/-- The output unit at a cell start (R148). -/
def Ou.atCell (ou : Ou) : Ou := { ou with cells := ou.cells + 1, position := cellPosition (ou.cells + 1) }

/-- The frame position rises to `p` within the current cell: never back, and never past the value that the next cell
start will give (R148). -/
def Ou.reach (ou : Ou) (p : Nat) : Ou :=
  if ou.position ≤ p ∧ p ≤ cellPosition (ou.cells + 1) then { ou with position := p } else ou

/-- The output unit at publication (R158). DESIGN CHOICE (notes/assumptions/30.md): the spec does not say which number
the cell in progress has before any mark; it is counted as cell 0. -/
def Ou.published (c : Configuration) : Ou := ⟨Vector.replicate 4 0, some c.frameLength, 0, 0⟩

/-! ### The other pins -/

/-- What an output of the configuration memory port shows (R199): a level, the clock, or the bits it carries at the
clocks that are still to come in the read. -/
inductive PortLevel where
  | high | low | clocking
  | carries (bits : List Bool)
  deriving DecidableEq, Repr

/-- The bytes the station sends on MDOUT during the read: the read command 3 and the address 0, high byte first (R200).
-/
def readCommand : List Byte := [3, 0, 0]

/-- MDOUT at each of the 336 clocks of the read: the command and address bits, most significant bit first, then low
while the block's 39 bytes are clocked in (R199, R200). -/
def readBits : List Bool := bitsOfBytes readCommand ++ List.replicate (8 * Config.blockLength) false

/-- The clocks of the read that have passed when CL's buffer holds what it does: none before the first byte, otherwise
those of the command, the address and the bytes stored (R200). -/
def Cl.clocks (cl : Cl) : Nat :=
  if cl.buffer = [] then 0 else 8 * (readCommand.length + cl.buffer.length)

/-- MSEL, MCLK and MDOUT (R199): while the read runs, MSEL is low, MCLK clocks and MDOUT carries its bits. -/
def Cl.pins (cl : Cl) : PortLevel × PortLevel × PortLevel :=
  match cl.load with
  | .reading => (.low, .clocking, .carries (readBits.drop cl.clocks))
  | .idle | .empty | .held => (.high, .low, .low)

/-- CTXD: the bits of the frame under way, or none at the idle level (R178, R195). -/
def State.ctxd (s : State) : Option (List Bool) := s.cp.sending.map fun f => f.bytes.flatMap serialBits

end Sys2Proof.Machine
end

