-- ==== Sys2Proof/Machine/Queue.lean ====
section
/-! DEFINITION. The claim queue's own operations (chapter 4): ordering, coalescing, admission, outcomes, staleness. -/

namespace Sys2Proof.Machine

/-- The OUTCOME report of a request: to its tag for a companion request, none for a key request (R97, R98). -/
def outcomeReport (src : Source) (o : QueueOutcome) : List Report :=
  match src with
  | .companion tag => [.outcome tag o]
  | .key _ => []

/-- Add 1 to a count that saturates at 255 (R98). -/
def bump8 (n : Nat) : Nat := min Config.maxByte (n + 1)

/-- Which of the four counts of R98 an event raises. -/
inductive KeyCount where
  | sent | failed | stale | dropped
  deriving DecidableEq, Repr

/-- One of a key's counts is raised (R98). -/
def KeyCounts.raise (c : KeyCounts) : KeyCount → KeyCounts
  | .sent => { c with sent := bump8 c.sent }
  | .failed => { c with failed := bump8 c.failed }
  | .stale => { c with stale := bump8 c.stale }
  | .dropped => { c with dropped := bump8 c.dropped }

/-- The count of a KEY request's index is raised; a COMPANION request has none (R98). -/
def Cq.count (q : Cq) (src : Source) (k : KeyCount) : Cq :=
  match src with
  | .key i => { q with counts := q.counts.set i (q.counts[i].raise k) }
  | .companion _ => q

/-- A new entry goes after the last entry of equal or lower priority value and before the first of higher (R81). -/
def insertEntry (e : Entry) : List Entry → List Entry
  | [] => [e]
  | x :: xs => if x.prio ≤ e.prio then x :: insertEntry e xs else e :: x :: xs

/-- What the queue makes of an offer: the queue after it, whether the request was taken, and the OUTCOME reports (R82,
R97). -/
structure Taking where
  cq      : Cq
  taken   : Bool
  reports : List Report
  deriving DecidableEq, Repr

/-- Admission: a list of fewer than 8 entries takes the request in its place with age 0, attempts 0, QUEUED (R82); a
full list turns it away, counting a drop for a key (R87). -/
def Cq.enrol (q : Cq) (src : Source) (prio : Nat) (req : Request) (reports : List Report) : Taking :=
  if q.entries.length < Config.maxEntries then
    ⟨{ q with entries := insertEntry ⟨src, prio, req, 0, 0, false, q.nextOrder⟩ q.entries,
              nextOrder := q.nextOrder + 1 }, true, reports⟩
  else ⟨q.count src .dropped, false, reports⟩

/-- The latest-admitted QUEUED entry that satisfies `p` (R83). -/
def latestQueued (p : Request → Bool) (l : List Entry) : Option Entry :=
  l.foldl (fun best e =>
    if !e.inFlight && p e.req then
      match best with
      | none => some e
      | some b => if b.order ≤ e.order then some e else some b
    else best) none

/-- A STEP on zone `z` (R84). -/
def Request.isStepOn (z : Fin 16) : Request → Bool
  | .step y _ => y == z
  | _ => false

/-- A TOGGLE on zone `z` (R85). -/
def Request.isToggleOn (z : Fin 16) : Request → Bool
  | .toggle y _ => y == z
  | _ => false

/-- The QUEUED entries a new request replaces (R86). -/
def Request.replaces (new old : Request) : Bool :=
  match new, old with
  | .level z _ _, .level y _ _ | .level z _ _, .halt y | .level z _ _, .toggle y _ => y == z
  | .halt z, .level y _ _ | .halt z, .halt y | .halt z, .toggle y _ => y == z
  | .recall _ _, .recall _ _ => true
  | .occupy z _ _ _, .occupy y _ _ _ => y == z
  | _, _ => false

/-- The size of a STEP request; 0 for any other. -/
def Request.stepOf : Request → Int
  | .step _ d => d
  | _ => 0

/-- Two steps added and held at ±511 (R84). -/
def foldSteps (a b : Int) : Int := max (-511) (min 511 (a + b))

/-- The entry is the QUEUED one of the given admission. -/
def Entry.waitsAs (order : Nat) (e : Entry) : Bool := !e.inFlight && e.order == order

/-- The queue without the QUEUED entry of the given admission. -/
def Cq.without (q : Cq) (order : Nat) : Cq := { q with entries := q.entries.filter fun e => !e.waitsAs order }

/-- CQ takes an offer: coalescing against the QUEUED entries (R83 to R86), then admission (R82). The outcomes of removed
entries come first, in list order, and the new request's own outcome last (R97). -/
def Cq.take (q : Cq) (src : Source) (prio : Nat) (req : Request) : Taking :=
  match req with
  | .step z d =>
    match latestQueued (Request.isStepOn z) q.entries with
    | none => q.enrol src prio req []
    | some old =>
      let sum := foldSteps old.req.stepOf d
      if sum = 0 then
        ⟨q.without old.order, true, outcomeReport old.source .cancelled ++ outcomeReport src .merged⟩
      else
        ⟨{ q with entries := q.entries.map fun e => if e.waitsAs old.order then { e with req := .step z sum } else e },
          true, outcomeReport src .merged⟩
  | .toggle z _ =>
    match latestQueued (Request.isToggleOn z) q.entries with
    | none => q.enrol src prio req []
    | some old => ⟨q.without old.order, true, outcomeReport old.source .cancelled ++ outcomeReport src .cancelled⟩
  | .capture _ => q.enrol src prio req []
  | _ =>
    let gone := fun (e : Entry) => !e.inFlight && req.replaces e.req
    { q with entries := q.entries.filter fun (e : Entry) => !gone e }.enrol src prio req
      ((q.entries.filter gone).flatMap fun (e : Entry) => outcomeReport e.source .replaced)

/-! ### The IN FLIGHT entry (R89 to R95) -/

/-- The IN FLIGHT entry, if any (R80). -/
def Cq.flying (q : Cq) : Option Entry := q.entries.find? Entry.inFlight

/-- The head's status becomes IN FLIGHT (R89). -/
def Cq.launch (q : Cq) : Cq :=
  match q.entries with
  | [] => q
  | e :: es => { q with entries := { e with inFlight := true } :: es }

/-- The IN FLIGHT entry returns to QUEUED, unchanged otherwise (R91, R94). -/
def Cq.land (q : Cq) : Cq := { q with entries := q.entries.map fun e => { e with inFlight := false } }

/-- SETTLED: the IN FLIGHT entry is removed with outcome SENT (R92). -/
def Cq.sent (q : Cq) : Cq × List Report :=
  match q.flying with
  | none => (q, [])
  | some e => ({ q with entries := q.entries.filter fun x => !x.inFlight }.count e.source .sent,
      outcomeReport e.source .sent)

/-- VOID or ABANDONED: an attempt is counted; at 4 the entry is removed as FAILED, otherwise it returns to QUEUED in its
place (R93, R95). -/
def Cq.void (q : Cq) : Cq × List Report :=
  match q.flying with
  | none => (q, [])
  | some e =>
    if Config.maxAttempts ≤ e.attempts + 1 then
      ({ q with entries := q.entries.filter fun x => !x.inFlight }.count e.source .failed,
        outcomeReport e.source .failed)
    else
      ({ q with entries := q.entries.map fun x =>
          if x.inFlight then { x with inFlight := false, attempts := x.attempts + 1 } else x }, [])

/-! ### Staleness (R96) -/

/-- An entry takes a mark: its age rises by 1, saturating at 255 (R96). -/
def Entry.older (e : Entry) : Entry := { e with age := bump8 e.age }

/-- The sweep removes the entry: it is QUEUED and at or above the limit (R96). -/
def Entry.isStale (limit : Nat) (e : Entry) : Bool := !e.inFlight && decide (limit ≤ e.age)

/-- Every entry ages, and the stale ones are removed in list order (R96). -/
def Cq.sweep (q : Cq) (limit : Nat) : Cq × List Report :=
  let aged := q.entries.map Entry.older
  let gone := aged.filter (Entry.isStale limit)
  (gone.foldl (fun q e => q.count e.source .stale) { q with entries := aged.filter fun e => !e.isStale limit },
    gone.flatMap fun e => outcomeReport e.source .stale)

/-- The part of a sweep that concerns the entry at place `i`: when its age reaches the limit at this mark while it is
QUEUED, it is removed with outcome STALE (R96). -/
def Cq.sweepOne (q : Cq) (limit i : Nat) : Cq × List Report :=
  match q.entries[i]? with
  | none => (q, [])
  | some e =>
    if e.older.isStale limit then
      ({ q with entries := q.entries.eraseIdx i }.count e.source .stale, outcomeReport e.source .stale)
    else (q, [])

end Sys2Proof.Machine
end

