-- ==== Sys2Proof/Machine/Zones.lean ====
section
/-! DEFINITION. The zone engine's rules for one record (chapter 5), and the scene store's rules (chapter 6). -/

namespace Sys2Proof.Machine

/-! ### Changes of one record -/

/-- A level change to `l` with fade code `c` (R107). -/
def ZoneRecord.levelChange (r : ZoneRecord) (l : Nat) (c : Fin 16) : ZoneRecord :=
  { r with target := l, fade := frames c, current := if c = 0 then l else r.current,
           lastOn := if 0 < l then l else r.lastOn }

/-- The hold check: a record whose target is 0 has no hold (R113). -/
def ZoneRecord.holdCheck (r : ZoneRecord) : ZoneRecord := if r.target = 0 then { r with hold := none } else r

/-- A target plus a step, held within 0..1023 (R108). -/
def clampLevel (i : Int) : Nat := min Config.maxLevel i.toNat

/-- STEP (R108). -/
def ZoneRecord.applyStep (r : ZoneRecord) (d : Int) : ZoneRecord :=
  let t := clampLevel (r.target + d)
  { r with target := t, fade := 4, lastOn := if 0 < t then t else r.lastOn }

/-- TOGGLE (R109). -/
def ZoneRecord.applyToggle (r : ZoneRecord) (c : Fin 16) : ZoneRecord :=
  if 0 < r.target then r.levelChange 0 c else r.levelChange r.lastOn c

/-- HALT (R110). DESIGN CHOICE (notes/assumptions/36.md): where no fade is in progress and last-on differs from the
level, R110 says both that last-on becomes current and that nothing changes; last-on becomes current. -/
def ZoneRecord.applyHalt (r : ZoneRecord) : ZoneRecord :=
  { r with target := r.current, fade := 0, lastOn := if 0 < r.current then r.current else r.lastOn }

/-- OCCUPY (R116). -/
def ZoneRecord.applyOccupy (r : ZoneRecord) (k c : Fin 16) (v : Nat) : ZoneRecord :=
  if k = 0 then { r with hold := none }
  else
    let on := if r.target = 0 then r.levelChange r.lastOn c else r
    { on with hold := some ⟨holdFrames k, v, c⟩ }

/-- ZONE STATEMENT (R117). DESIGN CHOICE (notes/assumptions/35.md): for a zone that ageing has cleared, R117 sets the
age to 0 and R121 keeps it at 64 until the next marking; it becomes 0. -/
def ZoneRecord.applyStatement (r : ZoneRecord) (t c f l : Nat) : ZoneRecord :=
  { r with target := t, current := c, fade := f, lastOn := l, unverified := false, age := 0, heard := true }

/-- HOLD STATEMENT (R119). -/
def ZoneRecord.applyHold (r : ZoneRecord) (h : Option Hold) : ZoneRecord :=
  if r.target = 0 then r else { r with hold := h }

/-- Marking a zone unverified (R120). -/
def ZoneRecord.mark (r : ZoneRecord) : ZoneRecord := { r with unverified := true, age := 0, heard := false }

/-! ### Stage (a) (R105, R106) -/

/-- The settled message applied to the live record of zone `z`, with its hold check; `stored s z` is the scene store's
answer to a RECALL lookup (R106, R113, R137). -/
def ZoneRecord.apply (stored : Fin 16 → Fin 16 → Option Nat) (m : Msg) (z : Fin 16) (r : ZoneRecord) : ZoneRecord :=
  match m with
  | .level y c l => if y = z then (r.levelChange l c).holdCheck else r
  | .step y d => if y = z then (r.applyStep d).holdCheck else r
  | .toggle y c => if y = z then (r.applyToggle c).holdCheck else r
  | .halt y => if y = z then r.applyHalt.holdCheck else r
  | .occupy y k c v => if y = z then (r.applyOccupy k c v).holdCheck else r
  | .recall s c =>
    match stored s z with
    | some l => (r.levelChange l c).holdCheck
    | none => r
  | .zoneStatement y t c f l => if y = z then (r.applyStatement t c f l).holdCheck else r
  | .holdStatement y p f v c => if y = z then r.applyHold (if p then some ⟨f, v, c⟩ else none) else r
  | .capture _ _ => r
  | .sceneStatement .. => r

/-- The unverified age is counted at a mark that ends a full ACTIVE frame; at 64 the mark clears (R121). -/
def ZoneRecord.grow (r : ZoneRecord) (fullActive : Bool) : ZoneRecord × Option ZoneCause :=
  if fullActive && r.unverified then
    if Config.agedFrames ≤ r.age + 1 then
      ({ r with unverified := false, age := Config.agedFrames }, some .aged)
    else ({ r with age := r.age + 1 }, none)
  else (r, none)

/-- Stage (a) of one live record: the apply, then the unverified age; the ZONE event of the stage, if any (R105, R117,
R121, R126). -/
def ZoneRecord.stageA (stored : Fin 16 → Fin 16 → Option Nat) (m : Option Msg) (fullActive : Bool) (z : Fin 16)
    (r : ZoneRecord) : ZoneRecord × Option ZoneCause :=
  let applied := match m with
    | some m => r.apply stored m z
    | none => r
  if r.unverified && !applied.unverified then (applied, some .statement) else applied.grow fullActive

/-! ### Stages (b) and (c), and the failsafe -/

/-- Stage (b): the hold loses 1, and at 0 it expires (R115). -/
def ZoneRecord.stageB (r : ZoneRecord) : ZoneRecord × Option ZoneCause :=
  match r.hold with
  | none => (r, none)
  | some h =>
    if h.remainder ≤ 1 then (({ r with hold := none }).levelChange h.vacant h.fade, some .holdEnd)
    else ({ r with hold := some { h with remainder := h.remainder - 1 } }, none)

/-- One fade step: current moves by the difference divided by the remainder, truncated toward zero; at remainder 0
current is the target (R114). -/
def ZoneRecord.fadeStep (r : ZoneRecord) : ZoneRecord :=
  if r.fade = 0 then r
  else if r.fade = 1 then { r with current := r.target, fade := 0 }
  else
    { r with current := ((r.current : Int) + ((r.target : Int) - r.current).tdiv r.fade).toNat, fade := r.fade - 1 }

/-- Stage (c): one fade step, and FADE END when the remainder reaches 0 in it (R114). -/
def ZoneRecord.stageC (r : ZoneRecord) : ZoneRecord × Option ZoneCause :=
  (r.fadeStep, if r.fade = 1 then some .fadeEnd else none)

/-- The failsafe at one live record (R123). -/
def ZoneRecord.failsafe (r : ZoneRecord) (level : Nat) (c : Fin 16) : ZoneRecord :=
  (r.levelChange level c).holdCheck.mark

/-! ### The zone table -/

/-- A change of every live record; records that are not live stay (R103, R105). -/
def Ze.mapLive (ze : Ze) (c : Configuration) (f : Fin 16 → ZoneRecord → ZoneRecord) : Ze :=
  { ze with zones := Vector.ofFn fun (z : Fin 16) => if c.tracks z then f z ze.zones[z] else ze.zones[z] }

/-- One stage over the live records: the table after it, and its ZONE events in ascending zone order with target and
current as they stand at the end of the stage (R126). -/
def Ze.stage (ze : Ze) (c : Configuration) (f : Fin 16 → ZoneRecord → ZoneRecord × Option ZoneCause) :
    Ze × List Report :=
  (ze.mapLive c fun z r => (f z r).1,
    (List.finRange 16).filterMap fun z =>
      if c.tracks z then
        let out := f z ze.zones[z]
        out.2.map fun cause => .zone z cause out.1.target out.1.current
      else none)

/-- Every live zone is marked unverified (R120). -/
def Ze.markAll (ze : Ze) (c : Configuration) : Ze := ze.mapLive c fun _ r => r.mark

/-- The failsafe at every live record (R123). -/
def Ze.failsafeAll (ze : Ze) (c : Configuration) : Ze := ze.mapLive c fun _ r => r.failsafe c.failLevel c.failFade

/-- The failsafe count's limit: 8 times the failsafe delay (R123). -/
def Configuration.failLimit (c : Configuration) : Nat := 8 * c.failDelay

/-- A local mark at the failsafe count: it rises to its limit, and the failsafe is taken when it reaches it (R123). -/
def Ze.countFailsafe (ze : Ze) (c : Configuration) : Ze :=
  if ze.failsafe < c.failLimit then
    let counted := { ze with failsafe := ze.failsafe + 1 }
    if counted.failsafe = c.failLimit then counted.failsafeAll c else counted
  else ze

/-! ### The scene store (chapter 6) -/

/-- The entry of scene `s` and zone `z` (R128). -/
def Ss.entry (ss : Ss) (s z : Fin 16) : SceneEntry := ss.entries[s][z]

/-- The scene table with the entry of (s, z) written. -/
def Ss.setEntry (ss : Ss) (s z : Fin 16) (e : SceneEntry) : Ss :=
  { ss with entries := ss.entries.set s (ss.entries[s].set z e) }

/-- The recall lookup (R137). -/
def Ss.stored (ss : Ss) (s z : Fin 16) : Option Nat := (ss.entry s z).level

/-- The generation a CAPTURE of scene `s` is sent with (R131). -/
def Ss.nextGen (ss : Ss) (s : Fin 16) : Byte := ss.gens[s] + 1

/-- A settled CAPTURE is applied: the table entry becomes `g`, and every entry of a tracked zone the zone's target
(R132). -/
def Ss.capture (ss : Ss) (c : Configuration) (ze : Ze) (s : Fin 16) (g : Byte) : Ss :=
  { ss with
    gens := ss.gens.set s g
    entries := ss.entries.set s (Vector.ofFn fun (z : Fin 16) =>
      if c.tracks z then ⟨some ze.zones[z].target, g, false⟩ else ss.entries[s][z]) }

/-- The entry after a SCENE STATEMENT that names it: adopted when its generation is equal or newer, and refused with
its correction mark set otherwise (R134, R135). -/
def SceneEntry.hear (e : SceneEntry) (g : Byte) (level : Option Nat) : SceneEntry :=
  if g = e.gen ∨ newer g e.gen then ⟨level, g, false⟩ else { e with correction := true }

/-- A settled SCENE STATEMENT is applied: the entry of a tracked zone hears it, and the generation table takes a newer
generation (R134, R135). -/
def Ss.hear (ss : Ss) (c : Configuration) (s z : Fin 16) (g : Byte) (level : Option Nat) : Ss :=
  let heard := if c.tracks z then ss.setEntry s z ((ss.entry s z).hear g level) else ss
  { heard with gens := if newer g ss.gens[s] then ss.gens.set s g else ss.gens }

/-- The scene store's part of stage (a) (R130). -/
def Ss.apply (ss : Ss) (c : Configuration) (ze : Ze) (m : Msg) : Ss :=
  match m with
  | .capture s g => ss.capture c ze s g
  | .sceneStatement s z g p l => ss.hear c s z g (if p then some l else none)
  | _ => ss

/-- The correction mark of a pair is cleared (R136). -/
def Ss.clearMark (ss : Ss) (s z : Fin 16) : Ss := ss.setEntry s z { ss.entry s z with correction := false }

end Sys2Proof.Machine
end

