-- ==== Sys2Proof/Machine/Flags.lean ====
section
/-! DEFINITION. Conditions the blocks ask of the state: which cell is which, what the station pulls in a cell, who
reports a zone, what the restatement generator presents, and whether a frame is clean. -/

namespace Sys2Proof.Machine

/-! ### Station states -/

/-- A ticking station is ACTIVE or MUTED (R4). -/
def StationState.ticking : StationState → Bool
  | .active | .muted => true
  | _ => false

/-- The states in which fields are read and marks are recognised: LISTENING, ACTIVE, MUTED (R14, R18). -/
def StationState.reading : StationState → Bool
  | .listening | .active | .muted => true
  | _ => false

/-- The station reads the fields of the line: framed, in LISTENING, ACTIVE or MUTED (R10, R18). -/
def State.readsFields (s : State) : Bool := s.station.reading && s.lc.framed

/-- The own station number (R205). -/
def State.number (s : State) : Fin 32 := s.conf.number

/-- The own record as the station state and the tracked zones give it (R51). -/
def ownRecord (c : Configuration) (st : StationState) : Member := ⟨st == .active, 0, c.trackedSet⟩

/-! ### The zone reporter (R54) and the restatement generator (R140 to R142) -/

/-- A PRESENT record with a station number lower than the own has `z` in its zone set (R54). -/
def Mu.heldBack (mu : Mu) (own : Fin 32) (z : Fin 16) : Bool :=
  (List.finRange 32).any fun i => decide (i < own) && mu.members[i].present && mu.members[i].zones.getLsbD z

/-- The station is the zone reporter for `z` (R54). -/
def State.reporter (s : State) (z : Fin 16) : Bool :=
  s.station == .active && s.conf.tracks z && !s.ze.zones[z].unverified && !s.mu.heldBack s.number z

/-- The zone of a rotation position (R138, R141). -/
def rotationZone (p : Fin 288) : Fin 16 := Fin.ofNat 16 (p.val / 18)

/-- The slot of a rotation position: 0 ZONE, 1 HOLD, 2 + s SCENE s (R138, R141). -/
def rotationSlot (p : Fin 288) : Nat := p.val % 18

/-- The position `k` places after `p` in rotation order (R141). -/
def rotationFrom (p : Fin 288) (k : Nat) : Fin 288 := Fin.ofNat 288 (p.val + k)

/-- The marked pair with the lowest zone, and within it the lowest scene, among the entries of tracked zones (R141). -/
def State.correctionItem (s : State) : Option Item :=
  (List.finRange 16).findSome? fun z =>
    if s.conf.tracks z then
      (List.finRange 16).findSome? fun sc => if (s.ss.entry sc z).correction then some (.correction sc z) else none
    else none

/-- The first rotation position from the cursor, once round, whose zone the station reports (R141). -/
def State.rotationItem (s : State) : Option Item :=
  ((List.range 288).find? fun k => s.reporter (rotationZone (rotationFrom s.rg.cursor k))).map fun k =>
    .rotation (rotationFrom s.rg.cursor k)

/-- The item the generator would choose (R141). -/
def State.chosenItem (s : State) : Option Item :=
  match s.correctionItem with
  | some i => some i
  | none => s.rotationItem

/-- The pair whose SCENE STATEMENT an item is, if it is one (R136, R142). -/
def Item.pair : Item → Option (Fin 16 × Fin 16)
  | .correction sc z => some (sc, z)
  | .rotation p => if 2 ≤ rotationSlot p then some (Fin.ofNat 16 (rotationSlot p - 2), rotationZone p) else none

/-- A SCENE STATEMENT of a pair, from its entry (R142). -/
def State.sceneMsg (s : State) (sc z : Fin 16) : Msg :=
  let e := s.ss.entry sc z
  .sceneStatement sc z e.gen e.level.isSome (e.level.getD 0)

/-- The statement of an item, built from the record and the entry as they stand (R142). -/
def State.itemMsg (s : State) : Item → Msg
  | .correction sc z => s.sceneMsg sc z
  | .rotation p =>
    let z := rotationZone p
    let r := s.ze.zones[z]
    match rotationSlot p with
    | 0 => .zoneStatement z r.target r.current r.fade r.lastOn
    | 1 =>
      match r.hold with
      | some h => .holdStatement z true h.remainder h.vacant h.fade
      | none => .holdStatement z false 0 0 0
    | k => s.sceneMsg (Fin.ofNat 16 (k - 2)) z

/-! ### Claims (R89, R140, R210) -/

/-- The claim byte of a priority and the own number (R210). -/
def claimByte (prio : Nat) (n : Fin 32) : Byte := BitVec.ofNat 8 (32 * prio + n)

/-- The priority of a claim byte (R210). -/
def claimPrio (b : Byte) : Nat := b.toNat / 32

/-- The origin number of a claim byte (R53, R210). -/
def claimOrigin (b : Byte) : Fin 32 := Fin.ofNat 32 b.toNat

/-- What is presented at the start of cell 12: the head of a queue that is not empty, otherwise the generator's item at
priority 6 when its gap allows; nothing unless the station is ACTIVE (R89, R140). -/
def State.presents (s : State) : Option (Contest × Option Item) :=
  if s.station == .active then
    match s.cq.entries with
    | e :: _ => some (⟨claimByte e.prio s.number, .queue⟩, none)
    | [] =>
      if s.conf.restatement ≤ s.rg.gap then
        s.chosenItem.map fun i => (⟨claimByte 6 s.number, .generator⟩, some i)
      else none
  else none

/-- The message the winner sends, taken from the block that presented (R62, R90, R142). -/
def State.wonMsg (s : State) : Presenter → Option Msg
  | .queue => s.cq.flying.map fun e => e.req.toMsg s.ss.nextGen
  | .generator => s.rg.presented.map s.itemMsg

/-! ### The frame record (R59) -/

/-- The kind as read or sent (R59, R66). -/
def FrameRecord.kind (r : FrameRecord) : Nat := natOfBits (r.cells.take 4)

/-- The data run as read or sent (R59). -/
def FrameRecord.data (r : FrameRecord) : List Bool := (r.cells.drop 4).take (8 * dataLength r.kind)

/-- The check cells as read (R66). -/
def FrameRecord.checkCells (r : FrameRecord) : List Bool := (r.cells.drop (4 + 8 * dataLength r.kind)).take 8

/-! ### What the station pulls (R2, R7, R8) -/

/-- The bit of a byte that stands in the field cell `k` places after the field's first (R210). -/
def byteBit (b : Byte) (k : Nat) : Bool := b.getMsbD k

/-- The bit the station sends in the value window of cell `k`, or none when it sends nothing there (R8, R18, R20 to
R22, R69). -/
def State.sends (s : State) (k : Nat) : Option Bool :=
  if s.station == .active && s.lc.framed then
    if 3 ≤ k ∧ k ≤ 10 then if s.lc.countSending then some (byteBit s.lc.count (k - 3)) else none
    else if k = 11 then
      if s.lc.countRead && s.lc.count.toNat % 32 == s.number.val then some false else none
    else if 12 ≤ k ∧ k ≤ 19 then
      match if s.lc.claimOpen then s.lc.contest else s.presents.map Prod.fst with
      | some c => some (byteBit c.claim (k - 12))
      | none => none
    else if 20 ≤ k ∧ k ≤ 88 then
      if s.msu.frame.phase == .message && s.msu.frame.role == .originator && !s.msu.frame.mismatch then
        s.msu.frame.stream[k - 20]?
      else none
    else if k = 89 then
      if s.msu.frame.phase == .message && (s.msu.frame.faultFound || s.msu.frame.veto) then some false else none
    else none
  else none

/-- The station pulls the value window of cell `k` (R2). -/
def State.pulls (s : State) (k : Nat) : Bool := s.sends k == some false

/-- A drive fault in cell `k`: the station pulled and its own sample reads FREE (R24). -/
def State.driveFaulty (s : State) (k : Nat) (r : Reading) : Bool := s.pulls k && r

/-! ### Cells no station should pull, and marks (R9, R15, R26) -/

/-- The first cell of the mark window: 22 after an empty claim, 92 otherwise (R8, R9). -/
def State.windowStart (s : State) : Nat := if s.msu.frame.phase == .noMessage then 22 else 92

/-- The first pad cell of a message of the record's kind (R8). -/
def FrameRecord.padStart (r : FrameRecord) : Nat := 32 + 8 * dataLength r.kind

/-- Cell `k` is one that no station should pull: the quiet cell, a guard cell, or a pad cell at a receiver (R8, R9,
R26). -/
def State.quietCell (s : State) (k : Nat) : Bool :=
  let r := s.msu.frame
  k == 2 || match r.phase with
    | .noMessage => k == 20 || k == 21
    | .message | .result =>
      k == 90 || k == 91 || (r.role == .receiver && decide (4 ≤ r.cells.length) && decide (r.padStart ≤ k)
        && decide (k ≤ 88))
    | _ => false

/-- A mark recognised from the line: a normal start, a normal start at an unframed station, or a cut (R15, R16). The
current cell's number is the frame timer (R11). DEDUCED (notes/assumptions/34.md): the example of section 7.8 calls a
mark at cell 130 of a frame of 200 a cut, against R8, R9 and R15, which put cell 130 in the mark window; the rules are
followed. -/
def State.recognisedKind (s : State) : MarkKind :=
  if !s.lc.framed then .unframed
  else if s.lc.timer = s.conf.frameLength ∨ s.windowStart ≤ s.lc.timer then .normal
  else .cutShort

/-- The frame the mark ends is clean for the station (R44). -/
def State.cleanFrame (s : State) : Bool :=
  s.mu.memberFrame && !s.mu.raised
    && (s.msu.frame.phase == .noMessage || s.msu.frame.result == some .settled)

/-- The station has been ACTIVE since the mark that began the frame (R121). -/
def State.fullActive (s : State) : Bool := s.mu.activeFrame && s.station == .active

end Sys2Proof.Machine
end

