-- ==== Sys2Proof/Machine/Ops.lean ====
section
/-! DEFINITION. The operations several commands share: the reports a happening offers, the station state and its
changes, the fault score, drive faults, the entries to LINE FAULT, to LISTENING and to membership, publication, and the
end of a contest or of a presented item. -/

namespace Sys2Proof.Machine

/-! ### A happening and its reports -/

/-- The reports that one happening gives, by who offers them: LC's LINE events, MSU's COMMIT, MU's STATE and MEMBER
events, ZE's ZONE events, CQ's OUTCOMEs, and MU's LINE event, DUPLICATE NUMBER (R193). -/
structure Offers where
  line      : List Report
  commit    : List Report
  state     : List Report
  member    : List Report
  zone      : List Report
  outcome   : List Report
  duplicate : List Report
  deriving DecidableEq, Repr

/-- The reports as lists, taken in any order among each other, each in its own: blocks that offer at one moment are
taken in either order (R194). DESIGN CHOICE (notes/assumptions/37.md): the spec gives no order among MU's own STATE,
MEMBER and DUPLICATE NUMBER of one happening; they are three lists, in any order too. -/
def Offers.lists (o : Offers) : List (List Report) :=
  [o.line, o.commit, o.state, o.member, o.zone, o.outcome, o.duplicate]

/-- A happening in progress: the state so far, and the reports it has given. -/
structure Work where
  s   : State
  out : Offers
  deriving DecidableEq, Repr

/-- A happening begins. -/
def Work.start (s : State) : Work := ⟨s, ⟨[], [], [], [], [], [], []⟩⟩

/-- A change of state that gives no report. -/
def Work.on (w : Work) (f : State → State) : Work := { w with s := f w.s }

/-- A LINE event of LC with a given frame count. -/
def Work.lineWith (w : Work) (e : LineEvent) (count : Byte) : Work :=
  { w with out := { w.out with line := w.out.line ++ [.line e count] } }

/-- A LINE event of LC, with the frame count as it stands (R193). -/
def Work.line (w : Work) (e : LineEvent) : Work := w.lineWith e w.s.lc.count

/-- MU's DUPLICATE NUMBER with a given frame count (R37, R39). -/
def Work.duplicate (w : Work) (count : Byte) : Work :=
  { w with out := { w.out with duplicate := w.out.duplicate ++ [.line .duplicateNumber count] } }

/-- Reports of the message unit. -/
def Work.commits (w : Work) (l : List Report) : Work := { w with out := { w.out with commit := w.out.commit ++ l } }

/-- A STATE event. -/
def Work.stated (w : Work) (st : StationState) (c : Cause) : Work :=
  { w with out := { w.out with state := w.out.state ++ [.state st c] } }

/-- MEMBER events. -/
def Work.members (w : Work) (l : List Report) : Work := { w with out := { w.out with member := w.out.member ++ l } }

/-- ZONE events. -/
def Work.zones (w : Work) (l : List Report) : Work := { w with out := { w.out with zone := w.out.zone ++ l } }

/-- OUTCOME reports. -/
def Work.outcomes (w : Work) (l : List Report) : Work := { w with out := { w.out with outcome := w.out.outcome ++ l } }

/-- The lists with the head of list `p` taken away, and that head; none where list `p` is absent or empty. -/
def takeHead : List (List Report) → Nat → Option (Report × List (List Report))
  | [], _ => none
  | [] :: _, 0 => none
  | (r :: l) :: ls, 0 => some (r, l :: ls)
  | l :: ls, p + 1 => (takeHead ls p).map fun x => (x.1, l :: x.2)

/-- The reports of several lists in the order CP takes them (R194): each pick takes the next report of the list it
names, and what the picks leave follows list by list. Each list's own order is kept. -/
def interleave : OfferOrder → List (List Report) → List Report
  | [], ls => ls.flatten
  | p :: ps, ls =>
    match takeHead ls p with
    | some (r, ls) => r :: interleave ps ls
    | none => interleave ps ls

/-- A happening ends: its reports are offered to CP in the order taken (R193, R194). -/
def Work.finish (order : OfferOrder) (w : Work) : State :=
  w.s.setCp (w.s.cp.offerAll (interleave order w.out.lists))

/-! ### The station state (R29) and the own record (R51) -/

/-- MU in a new station state: the own record follows it, and the frame in progress is no longer one spent in
membership, or in ACTIVE, throughout (R44, R51, R121). -/
def Mu.enter (mu : Mu) (c : Configuration) (dest : StationState) : Mu :=
  { mu with
    station := dest
    members := mu.members.set c.number (ownRecord c dest)
    memberFrame := mu.memberFrame && dest.ticking
    activeFrame := mu.activeFrame && dest == .active }

/-- A change of station state with its STATE event (R29). -/
def Work.changeState (w : Work) (dest : StationState) (cause : Cause) : Work :=
  (w.on fun s => s.setMu (s.mu.enter s.conf dest)).stated dest cause

/-- The join bookkeeping cleared (R32, R36). -/
def Mu.clearJoin (mu : Mu) : Mu := { mu with lastCount := none, pairHeld := false, ownFree := false }

/-- Every live zone is marked unverified (R120). -/
def State.markZones (s : State) : State := s.setZe (s.ze.markAll s.conf)

/-- The presented item becomes none (R143). -/
def Rg.drop (rg : Rg) : Rg := { rg with presented := none }

/-- Entry to membership, muting or unmuting: no item is presented after it (R146). -/
def Work.changeStanding (w : Work) (dest : StationState) (cause : Cause) : Work :=
  (w.changeState dest cause).on fun s => s.setRg s.rg.drop

/-- Entry to membership: ACTIVE below a score of 64 and MUTED otherwise, zones marked, bookkeeping cleared (R33). -/
def Work.enterMembership (w : Work) (cause : Cause) : Work :=
  let dest := if w.s.mu.score < Config.scoreHigh then StationState.active else .muted
  ((w.changeStanding dest cause).on fun s => s.setMu s.mu.clearJoin).on State.markZones

/-- Every record other than the own becomes ABSENT (R49, R55). -/
def Mu.forgetOthers (mu : Mu) (own : Fin 32) : Mu :=
  { mu with members := Vector.ofFn fun (i : Fin 32) => if i = own then mu.members[i] else .absent }

/-! ### What a contest or a message leaves when it ends -/

/-- A contest that ends without a win: the entry returns to QUEUED, or the item is dropped (R91, R143). -/
def State.endContest (s : State) : State :=
  match s.lc.contest with
  | none => s
  | some c =>
    let s := s.setLc { s.lc with contest := none }
    match c.by_ with
    | .queue => s.setCq s.cq.land
    | .generator => s.setRg s.rg.drop

/-- VOID or ABANDONED at the presenting block (R93, R95, R143). -/
def Work.voided (w : Work) (p : Option Presenter) : Work :=
  match p with
  | none => w
  | some .generator => w.on fun s => s.setRg s.rg.drop
  | some .queue => (w.on fun s => s.setCq s.cq.void.1).outcomes w.s.cq.void.2

/-- The block `p` contends in the frame or has its message in it (R21, R62). -/
def State.inFrame (s : State) (p : Presenter) : Bool :=
  s.lc.contest.any (fun c => c.by_ == p) || (s.msu.frame.phase == .message && s.msu.frame.presenter == some p)

/-- The station originates the message of the frame (R59). -/
def State.originating (s : State) : Bool := s.msu.frame.phase == .message && s.msu.frame.role == .originator

/-! ### LINE FAULT (R23, R28, R47, R75) -/

/-- LC at the entry to LINE FAULT: the line released, no field in progress, unframed; the timer keeps its value unless
it stands at the own frame length; indications, count, slip count and stuck pull measure are kept (R23, R28). -/
def Lc.toLineFault (lc : Lc) (frameLength : Nat) : Lc :=
  { lc with
    drive := .released
    markable := false
    framed := false
    timer := if lc.timer = frameLength then 0 else lc.timer
    silence := 0
    silencePart := 0
    clear := 0
    nextCell := 3
    countSending := true
    countBits := []
    countRead := false
    claimOpen := false
    contest := none
    claimBits := [] }

/-- MSU abandons the frame: NO FRAME and an empty slot (R59, R75, R76). -/
def Msu.abandon (m : Msu) : Msu := { m with frame := .cleared .noFrame, slot := none }

/-- Entry to LINE FAULT (R23, R47, R75, R91, R95, R123): a contest ends without an attempt, an own message is
ABANDONED, the frame is given up, bookkeeping and drive-fault history are cleared, and every live zone is marked. -/
def Work.enterLineFault (w : Work) (cause : Cause) : Work :=
  let own := if w.s.originating then w.s.msu.frame.presenter else none
  (((w.on State.endContest).voided own).on fun s =>
      ((((s.setLc (s.lc.toLineFault s.conf.frameLength)).setMsu s.msu.abandon).setRg s.rg.drop).setMu
        { s.mu.clearJoin with faultBefore := false }).setZe { s.ze.markAll s.conf with failsafe := 0 }).changeState
    .lineFault cause

/-! ### The fault score (R40 to R45) -/

/-- The score rises, never above 255, and the frame is marked as one that raised it (R40, R44). -/
def Mu.addScore (mu : Mu) (n : Nat) : Mu := { mu with score := min Config.maxByte (mu.score + n), raised := true }

/-- A happening that raises the score by `n` in ACTIVE or MUTED; at 64 or more an ACTIVE station is muted (R40,
R45). -/
def Work.raise (w : Work) (n : Nat) : Work :=
  if w.s.station.ticking then
    let w := w.on fun s => s.setMu (s.mu.addScore n)
    if w.s.station == .active && decide (Config.scoreHigh ≤ w.s.mu.score) then w.changeStanding .muted .scoreHigh
    else w
  else w

/-- A drive fault: the first of a frame sets the indication, offers DRIVE FAULT and adds 8, and takes the station to
LINE FAULT, with one STATE event, when the frame before had one too (R24, R29, R43, R45). -/
def Work.driveFault (w : Work) : Work :=
  if w.s.lc.driveFault then w
  else
    let seen := (w.on fun s => s.setLc { s.lc with driveFault := true }).line .driveFault
    if seen.s.mu.faultBefore then (seen.on fun s => s.setMu (s.mu.addScore 8)).enterLineFault .driveFaults
    else seen.raise 8

/-- A disturbance: one event a frame (R26). -/
def Work.disturb (w : Work) : Work :=
  if w.s.lc.disturbance then w else (w.line .disturbance).on fun s => s.setLc { s.lc with disturbance := true }

/-! ### LISTENING (R28, R32) and publication (R205) -/

/-- LC at an entry to LISTENING: unframed on the own width, the line released and no field in progress, the silence
count 0; the clear stretch is not kept (R3, R10, R27, R28). -/
def Lc.toListening (lc : Lc) (own : Nat) : Lc :=
  { lc.toLineFault 0 with running := own, timer := lc.timer }

/-- Entry to LISTENING (R32), the message unit's record cleared with it (R59). -/
def Work.enterListening (w : Work) (cause : Cause) : Work :=
  (w.on fun s =>
      ((s.setLc (s.lc.toListening s.conf.ownWidth)).setMsu s.msu.abandon).setMu
        { s.mu.clearJoin with faultBefore := false }).changeState .listening cause

/-- Publication of a configuration: CL is HELD with its buffer emptied, and every block starts from its publication
values (R127, R146, R158, R177, R198, R205). -/
def State.publish (s : State) (c : Configuration) : State :=
  { s with
    cl := ⟨.held, [], some c⟩
    lc := .cold
    cq := { s.cq with entries := [] }
    ze := .cold
    ss := .cold
    rg := .cold
    ou := .published c
    ku := .cold }

end Sys2Proof.Machine
end

