-- ==== Sys2Proof/Machine/Cells.lean ====
section
/-! DEFINITION. Cells and the line's quiet and stuck measures: CELL_START, STUCK_PULL and LINE_CLEAR. Times are whole
nanoseconds. -/

namespace Sys2Proof.Machine

/-- The current cell is cell 0 of a mark that the station issues, whose timer stands at the own frame length until the
mark is taken at the cell's rest sample (R11 to R13). -/
def State.issues (s : State) : Bool := s.station.ticking && decide (s.lc.timer = s.conf.frameLength)

/-- The current cell is cell 0 or 1 of a frame mark: of one that has been taken, or cell 0 of one that is being issued
(R13, R14). -/
def State.inMark (s : State) : Bool := s.lc.framed && (decide (s.lc.timer ≤ 1) || s.issues)

/-- The duration of the cell that ends: what was observed at a transition, at least 25 µs and at most the own cell
width; the running width for a cell of a mark; the own cell width otherwise (R3 to R5, R14). -/
def State.duration (s : State) (o : CellObs) : Nat :=
  if o.transition then max Config.widthStep (min s.conf.ownWidth o.width)
  else if s.inMark then s.lc.running else s.conf.ownWidth

/-- The part of a cell that counts for the measures, of a cell that has lasted `lasted`: all of it, or in the cell of a
warm restart what has passed since then (R25, R27, R28). -/
def Lc.counted (lc : Lc) (lasted since : Nat) : Nat := if lc.fresh then since else lasted

/-- A stretch longer than 3 own cell widths (R25, R27). -/
def stuckLength (own length : Nat) : Bool := decide (3 * own < length)

/-- The length of a PULLED stretch at LC's measure, with `passed` nanoseconds of the current cell counted: no more than
the measure has run since the entry or the restart that started it (R25, R28). -/
def Lc.pullAt (lc : Lc) (passed pulledFor : Nat) : Nat := min pulledFor (lc.measured + passed)

/-- The stuck pull measure at an observation; the hand-over mark is kept while the stretch that gave it goes on (R25).
-/
def Lc.measurePull (lc : Lc) (own passed pulledFor : Nat) : Lc :=
  { lc with
    pullLength := lc.pullAt passed pulledFor
    pullHanded := lc.pullHanded && stuckLength own (lc.pullAt passed pulledFor) }

/-- The silence count just before a transition, when `d` nanoseconds of the current cell count: 1 more where an own
width has passed before it (R27). DESIGN CHOICE (notes/assumptions/24.md): where the width ends with the transition
itself, the transition comes first. -/
def Lc.silenceBefore (lc : Lc) (own d : Nat) : Nat :=
  if (own : Int) < lc.silencePart + d then min Config.maxSilence (lc.silence + 1) else lc.silence

/-- The silence count at an observation, when `d` nanoseconds of the current cell count (R27). A transition sets it to
0, unless the count has reached the founding threshold before it: the station then founds (R35). DESIGN CHOICE
(notes/assumptions/24.md): own widths are counted from the last change of the count, be it a transition, an entry to
LISTENING or an increase. -/
def Lc.measureSilence (lc : Lc) (own threshold d : Nat) (transition : Bool) : Lc :=
  if transition then
    { lc with
      silence := if threshold ≤ lc.silenceBefore own d then lc.silenceBefore own d else 0
      silencePart := 0 }
  else if (own : Int) ≤ lc.silencePart + d then
    { lc with silence := min Config.maxSilence (lc.silence + 1), silencePart := lc.silencePart + d - own }
  else { lc with silencePart := lc.silencePart + d }

/-- What the station pulls in the cell with the timer's number: the whole of a mark's cells, otherwise the tick and the
value window of a sent 0; nothing unless it ticks (R2, R6, R7, R13, R14). -/
def State.driveNow (s : State) : Drive :=
  if s.station.ticking then
    if s.lc.framed ∧ (s.lc.timer = 1 ∨ s.lc.timer = s.conf.frameLength) then .whole
    else ⟨true, s.pulls s.lc.timer, false⟩
  else .released

/-- The ended cell shows a disturbance: it is one that no station should pull, its mid-cell sample reads PULLED, and it
is no cell of a frame mark nor the start of one (R26). DESIGN CHOICE (notes/assumptions/28.md): the spec does not say
how a cell that a transition interrupts before its rest sample is judged; it is judged at that transition, with the
sample given for it. -/
def State.disturbedBy (s : State) (o : CellObs) : Bool :=
  s.lc.framed && !s.inMark && s.quietCell s.lc.timer && !o.mid && !(!o.rest && s.lc.markable)

/-- The number of the next cell: the timer rises and stops at the own frame length (R11). -/
def nextTimer (timer frameLength : Nat) : Nat := min (timer + 1) frameLength

/-- LC at a cell start in LISTENING, ACTIVE or MUTED (R3 to R5, R11, R14, R25, R27, R35). DESIGN CHOICE
(notes/assumptions/26.md): only a cell begun by an observed transition can become cell 0 of a mark; one begun by its own
elapsed width, where the station's own tick may have taken the line low, is not taken as begun by a transition. -/
def State.beginCell (o : CellObs) (s : State) : State :=
  let own := s.conf.ownWidth
  let d := s.duration o
  let passed := s.lc.counted (if o.transition then o.width else d) o.since
  let lc := s.lc.measurePull own passed o.pulledFor
  let lc := if s.station = .listening then lc.measureSilence own s.conf.foundingWidths passed o.transition else lc
  let moved := s.setLc { lc with
    measured := lc.measured + passed
    fresh := false
    running := if s.inMark then lc.running else d
    timer := if lc.framed then nextTimer lc.timer s.conf.frameLength else lc.timer
    markable := o.transition }
  (moved.setLc { moved.lc with drive := moved.driveNow }).setOu s.ou.atCell

/-- The grid of LINE FAULT: cells of the own cell width, the local timer and the clear stretch; a transition begins no
cell (R5, R11, R23, R27). -/
def State.faultCell (o : CellObs) (s : State) : State :=
  let own := s.conf.ownWidth
  let passed := s.lc.counted (if o.transition then o.width else own) o.since
  let lc := s.lc.measurePull own passed o.pulledFor
  let ended := stuckLength own s.lc.pullLength
  if o.transition then s.setLc { lc with clear := if ended then 0 else lc.clear }
  else
    (s.setLc { lc with
      measured := lc.measured + passed
      fresh := false
      running := own
      timer := nextTimer lc.timer s.conf.frameLength
      markable := false
      clear := if ended || stuckLength own lc.pullLength then 0 else min Config.clearCells (lc.clear + 1) }).setOu
      s.ou.atCell

/-- A transition inside a frame mark starts no cell; it only sets the line measures back (R14, R25, R27). -/
def State.insideMark (o : CellObs) (s : State) : State :=
  let passed := s.lc.counted o.width o.since
  let lc := s.lc.measurePull s.conf.ownWidth passed o.pulledFor
  s.setLc (if s.station = .listening then
    { lc.measureSilence s.conf.ownWidth s.conf.foundingWidths passed true with silencePart := -(passed : Int) } else lc)

/-- CELL_START (R4, R5): the current cell's time has elapsed, or the line changes from FREE to PULLED. -/
def execCellStart (o : CellObs) (s : State) : Host.Outcome State Fault Refusal :=
  .next (match s.station with
  | .listening | .active | .muted =>
    if o.transition && s.inMark then s.insideMark o
    else
      let w := if s.disturbedBy o then (Work.start s).disturb else Work.start s
      (w.on (State.beginCell o)).finish []
  | .lineFault => s.faultCell o
  | .reset | .loading | .unconfigured => s)

/-- STUCK_PULL (R25, R47, R48): the line has been PULLED for longer than 3 own cell widths, by a measure that runs from
the entry to LISTENING or the warm restart at the earliest; handed over once for the stretch. -/
def execStuckPull (o : PullObs) (order : OfferOrder) (s : State) : Host.Outcome State Fault Refusal :=
  let length := s.lc.pullAt (s.lc.counted o.width o.since) o.pulledFor
  .next (if s.station.running ∧ stuckLength s.conf.ownWidth length ∧ s.lc.pullHanded = false then
    let seen := s.setLc { s.lc with pullLength := length, pullHanded := true }
    if s.station = .lineFault then seen.setLc { seen.lc with clear := 0 }
    else ((Work.start seen).enterLineFault .stuckPull).finish order
  else s)

/-- LINE_CLEAR (R49): the clear stretch of a station in LINE FAULT stands at 32. -/
def execLineClear (s : State) : Host.Outcome State Fault Refusal :=
  .next (if s.station = .lineFault ∧ s.lc.clear = Config.clearCells then
    let emptied := (s.setMu (s.mu.forgetOthers s.number)).setZe { s.ze with failsafe := 0 }
    ((Work.start emptied).enterListening .lineClear).finish []
  else s)

end Sys2Proof.Machine
end

