-- ==== Sys2Proof/Machine/StartUp.lean ====
section
/-! DEFINITION. Resets and configuration: COLD_RESET, RESET_END, MEMORY_READ_END, and the warm restart that
FRAME_TRANSMITTED carries out (chapter 10, R30, R55, R196). -/

namespace Sys2Proof.Machine

/-- COLD_RESET (R30): RESET, every block at its cold values, work in progress abandoned. -/
def execColdReset (s : State) : Host.Outcome State Fault Refusal := .next (State.reset.setPending s.pending)

/-- RESET_END (R30, R198): the station enters LOADING with cause COLD START, and the memory read begins. -/
def execResetEnd (s : State) : Host.Outcome State Fault Refusal :=
  .next (if s.station = .reset then
    ((Work.start (s.setCl { s.cl with load := .reading })).changeState .loading .coldStart).finish []
  else s)

/-- A valid block is published and the station enters LISTENING (R31, R205). -/
def State.configured (s : State) (block : List Byte) (cause : Cause) : State :=
  ((Work.start (s.publish (readBlock block))).enterListening cause).finish []

/-- A byte that MDIN brings is stored as the next of the block buffer, until it holds 39 (R198, R200). -/
def Cl.clockIn (cl : Cl) (b : Byte) : Cl :=
  if cl.buffer.length < Config.blockLength then { cl with buffer := cl.buffer ++ [b] } else cl

/-- The end of the read: the block in the buffer is judged; it is published, or the station becomes UNCONFIGURED and the
buffer is discarded (R203). -/
def State.judgeRead (s : State) : State :=
  match faultIndex s.cl.buffer with
  | none => s.configured s.cl.buffer .loaded
  | some _ => ((Work.start (s.setCl ⟨.empty, [], none⟩)).changeState .unconfigured .noConfiguration).finish []

/-- MEMORY_READ_END (R200, R203): bytes of the memory read reach the buffer one by one, and the 39th ends the read
(notes/assumptions/19.md). -/
def execMemoryReadEnd (block : List Byte) (s : State) : Host.Outcome State Fault Refusal :=
  .next (if s.station = .loading ∧ s.cl.load = .reading then
    let read := s.setCl (block.foldl Cl.clockIn s.cl)
    if read.cl.buffer.length < Config.blockLength then read else read.judgeRead
  else s)

/-- CP after a warm restart: the subscription set alone is kept (R196, R197). -/
def Cp.restarted (cp : Cp) : Cp := { Cp.cold with subs := cp.subs }

/-- LC after a warm restart: the slip count alone is kept, and the measures start within the cell in progress (R19, R27,
R28). DESIGN CHOICE (notes/assumptions/32.md): the spec does not say whether that cell, where it began with a
transition, may still become cell 0 of a recognised mark; it may not. -/
def Lc.restarted (lc : Lc) : Lc := { Lc.cold with slips := lc.slips, fresh := true }

/-- The warm restart: CP cleared but for its subscriptions, the line released and unframed, the claim queue emptied
without outcomes, zones marked, generator and keys cleared, score 0, other records ABSENT; then STATE with cause
RESTART (R28, R55, R76, R101, R127, R138, R177, R196). -/
def State.warmRestart (s : State) : State :=
  let cleared : State := { s with
    cp := s.cp.restarted
    lc := s.lc.restarted
    cq := { s.cq with entries := [] }
    ze := { s.ze.markAll s.conf with failsafe := 0 }
    rg := .cold
    ku := .cold
    mu := { s.mu.forgetOthers s.number with score := 0, raised := false } }
  ((Work.start cleared).enterListening .restart).finish []

end Sys2Proof.Machine
end

