-- ==== Sys2Proof/Machine/Companion.lean ====
section
/-! DEFINITION. The companion port's commands (chapter 9): the bytes of the receive assembler, the eight requests, and
the end of a transmitted frame. -/

namespace Sys2Proof.Machine

/-! ### The tests of a request (R182, R183) -/

/-- The eight requests (R212). -/
inductive RequestType where
  | configure | send | queryStation | queryZone | queryMembers | queryScene | subscribe | restart
  deriving DecidableEq, Repr

/-- The request a type byte names (R212). -/
def RequestType.ofByte (b : Byte) : Option RequestType :=
  match b.toNat with
  | 1 => some .configure | 2 => some .send | 3 => some .queryStation | 4 => some .queryZone
  | 5 => some .queryMembers | 6 => some .queryScene | 7 => some .subscribe | 8 => some .restart
  | _ => none

/-- Test 2: the body has the length the type requires (R182). -/
def RequestType.lengthOk (t : RequestType) (body : List Byte) : Bool :=
  match t with
  | .configure => body.length == Config.blockLength
  | .send => sendLengthOk body
  | .queryStation | .restart => body.length == 0
  | .queryZone | .queryMembers | .queryScene | .subscribe => body.length == 1

/-- Test 3: the refusal that the station state gives, if any (R183). -/
def RequestType.stateFault (t : RequestType) (st : StationState) : Option Reason :=
  match t, st with
  | .queryStation, _ | .subscribe, _ => none
  | .configure, .unconfigured => none
  | _, .loading => some .loading
  | .configure, _ => some .alreadyConfigured
  | _, .unconfigured => some .notConfigured
  | _, _ => none

/-- Test 4: the lowest body index at fault, if any (R182, R184, R185, R187 to R190, R212). -/
def RequestType.fieldFault (t : RequestType) (body : List Byte) : Option Nat :=
  let b := (body.getD 0 0#8).toNat
  match t with
  | .configure => faultIndex body
  | .send => sendFault body
  | .queryStation | .restart => none
  | .queryZone | .queryScene => if 15 < b then some 0 else none
  | .queryMembers => if 1 < b then some 0 else none
  | .subscribe => if 31 < b then some 0 else none

/-- A reply with a body. -/
def State.accept (s : State) (tag : Byte) (body : List Byte) : State := s.setCp (s.cp.accept tag body)

/-- A refusal. -/
def State.refuse (s : State) (tag : Byte) (r : Reason) : State := s.setCp (s.cp.refuse tag r)

/-- A complete request at CP (R182): not processed in RESET or at a full slot; otherwise the first test that fails gives
the reply, and the request's own action the rest. -/
def State.takeRequest (s : State) (t : RequestType) (tag : Byte) (body : List Byte) (act : State → State) : State :=
  if s.station = .reset then s
  else if s.cp.slot.isSome then s.setCp { s.cp with overrun := true }
  else if t.lengthOk body then
    match t.stateFault s.station with
    | some r => s.refuse tag r
    | none =>
      match t.fieldFault body with
      | some i => s.refuse tag (.badField i)
      | none => act s
  else s.refuse tag .badLength

/-! ### The actions -/

/-- The action of CONFIGURE: ACCEPT, then publication and the entry to LISTENING (R184, R204). -/
def State.doConfigure (tag : Byte) (body : List Byte) (s : State) : State :=
  (s.accept tag []).configured body .configured

/-- The action of SEND: the offer to the claim queue, the reply, then the OUTCOME reports (R82, R87, R97, R185). -/
def State.doSend (tag : Byte) (body : List Byte) (s : State) : State :=
  match sendRequest body with
  | none => s.refuse tag (.badField 1)
  | some req =>
    let t := s.cq.take (.companion tag) (body.getD 0 0#8).toNat req
    if t.taken then
      ((Work.start ((s.setCq t.cq).accept tag [BitVec.ofNat 8 t.cq.entries.length])).outcomes t.reports).finish []
    else s.refuse tag .outboxFull

/-- Flags as a number, flag k with weight 2 to the power k. -/
def bitWord (l : List Bool) : Nat := l.foldr (fun b n => b.toNat + 2 * n) 0

/-- The QUERY STATION body (R186, R212). -/
def State.stationBody (s : State) : List Byte :=
  [s.station.code, BitVec.ofNat 8 s.number, BitVec.ofNat 8 (bitWord [s.lc.framed, s.rg.lastOwn.isSome]), s.lc.count,
    BitVec.ofNat 8 s.mu.score, BitVec.ofNat 8 s.lc.slips]
  ++ wordBytes s.msu.settledCount ++ wordBytes s.msu.voidCount ++ wordBytes s.msu.discardCount
  ++ [BitVec.ofNat 8 s.cq.entries.length]
  ++ (s.cq.counts.toList.flatMap fun c =>
    [BitVec.ofNat 8 c.sent, BitVec.ofNat 8 c.failed, BitVec.ofNat 8 c.stale, BitVec.ofNat 8 c.dropped])
  ++ [BitVec.ofNat 8 (bitWord ((s.ku.channels.toList.map KeyChannel.pressed)
      ++ s.ku.channels.toList.map KeyChannel.down)),
    BitVec.ofNat 8 s.rg.gap, s.rg.lastOwn.getD 0, BitVec.setWidth 8 s.cp.subs]

/-- The action of QUERY STATION (R186). -/
def State.doQueryStation (tag : Byte) (s : State) : State := s.accept tag s.stationBody

/-- The QUERY ZONE body of a live record (R187, R212). DESIGN CHOICE (notes/assumptions/38.md): with no hold the table
gives the remainder and the vacant level as 0 and says nothing of the expiry fade code, which is sent as 0 too. -/
def State.liveZoneBody (s : State) (z : Fin 16) : List Byte :=
  let r := s.ze.zones[z]
  let h := r.hold.getD ⟨0, 0, 0⟩
  [BitVec.ofNat 8 (z + 16 * bitWord [s.reporter z, r.heard, r.unverified, true])]
  ++ wordBytes r.target ++ wordBytes r.current ++ wordBytes r.fade ++ wordBytes r.lastOn
  ++ [BitVec.ofNat 8 (128 * r.hold.isSome.toNat + h.fade)] ++ wordBytes h.remainder ++ wordBytes h.vacant
  ++ [BitVec.ofNat 8 r.age, BitVec.ofNat 8 (s.conf.channelSet z)]

/-- The QUERY ZONE body: a record that is not live gives every item but the zone as 0 (R187). -/
def State.zoneBody (s : State) (z : Fin 16) : List Byte :=
  if s.conf.tracks z then s.liveZoneBody z else BitVec.ofNat 8 z :: List.replicate 15 0#8

/-- The action of QUERY ZONE (R187). -/
def State.doQueryZone (tag : Byte) (body : List Byte) (s : State) : State :=
  s.accept tag (s.zoneBody (Fin.ofNat 16 (body.getD 0 0#8).toNat))

/-- The records of one half of the member table in ascending station order (R188). -/
def Mu.half (mu : Mu) (half : Nat) : List Member := (mu.members.toList.drop (16 * half)).take 16

/-- The QUERY MEMBERS body (R188, R212). -/
def State.membersBody (s : State) (half : Nat) : List Byte :=
  let l := s.mu.half half
  [BitVec.ofNat 8 half] ++ wordBytes (bitWord (l.map Member.present)) ++ wordBytes (bitWord (l.map fun m => m.misses == 1))
  ++ l.flatMap fun m => wordBytes m.zones.toNat

/-- The action of QUERY MEMBERS (R188). -/
def State.doQueryMembers (tag : Byte) (body : List Byte) (s : State) : State :=
  s.accept tag (s.membersBody (body.getD 0 0#8).toNat)

/-- The four bytes of a scene entry (R189, R212). -/
def SceneEntry.bytes (e : SceneEntry) (z : Fin 16) : List Byte :=
  [BitVec.ofNat 8 (z + 64 * bitWord [e.correction, e.level.isSome])] ++ wordBytes (e.level.getD 0) ++ [e.gen]

/-- The QUERY SCENE body (R189, R212). -/
def State.sceneBody (s : State) (sc : Fin 16) : List Byte :=
  [BitVec.ofNat 8 sc, s.ss.gens[sc]]
  ++ (List.finRange 16).flatMap fun z => if s.conf.tracks z then (s.ss.entry sc z).bytes z else []

/-- The action of QUERY SCENE (R189). -/
def State.doQueryScene (tag : Byte) (body : List Byte) (s : State) : State :=
  s.accept tag (s.sceneBody (Fin.ofNat 16 (body.getD 0 0#8).toNat))

/-- The action of SUBSCRIBE: the set is replaced (R190). -/
def State.doSubscribe (tag : Byte) (body : List Byte) (s : State) : State :=
  let set := BitVec.setWidth 5 (body.getD 0 0#8)
  (s.setCp { s.cp with subs := set }).accept tag [BitVec.setWidth 8 set]

/-- The action of RESTART: ACCEPT, and a restart pending until it has been transmitted (R191). -/
def State.doRestart (tag : Byte) (s : State) : State :=
  let accepted := s.accept tag []
  accepted.setCp { accepted.cp with restart := true }

/-! ### The requests as commands -/

/-- CONFIGURE (R184). -/
def execConfigure (tag : Byte) (body : List Byte) (s : State) : Host.Outcome State Fault Refusal :=
  .next (s.takeRequest .configure tag body (State.doConfigure tag body))

/-- SEND (R185). -/
def execSend (tag : Byte) (body : List Byte) (s : State) : Host.Outcome State Fault Refusal :=
  .next (s.takeRequest .send tag body (State.doSend tag body))

/-- QUERY STATION (R186). -/
def execQueryStation (tag : Byte) (body : List Byte) (s : State) : Host.Outcome State Fault Refusal :=
  .next (s.takeRequest .queryStation tag body (State.doQueryStation tag))

/-- QUERY ZONE (R187). -/
def execQueryZone (tag : Byte) (body : List Byte) (s : State) : Host.Outcome State Fault Refusal :=
  .next (s.takeRequest .queryZone tag body (State.doQueryZone tag body))

/-- QUERY MEMBERS (R188). -/
def execQueryMembers (tag : Byte) (body : List Byte) (s : State) : Host.Outcome State Fault Refusal :=
  .next (s.takeRequest .queryMembers tag body (State.doQueryMembers tag body))

/-- QUERY SCENE (R189). -/
def execQueryScene (tag : Byte) (body : List Byte) (s : State) : Host.Outcome State Fault Refusal :=
  .next (s.takeRequest .queryScene tag body (State.doQueryScene tag body))

/-- SUBSCRIBE (R190). -/
def execSubscribe (tag : Byte) (body : List Byte) (s : State) : Host.Outcome State Fault Refusal :=
  .next (s.takeRequest .subscribe tag body (State.doSubscribe tag body))

/-- RESTART (R191). -/
def execRestart (tag : Byte) (body : List Byte) (s : State) : Host.Outcome State Fault Refusal :=
  .next (s.takeRequest .restart tag body (State.doRestart tag))

/-! ### Bytes on CRXD (R179 to R181) -/

/-- The action of a request by its type. -/
def RequestType.action (t : RequestType) (tag : Byte) (body : List Byte) : State → State :=
  match t with
  | .configure => State.doConfigure tag body
  | .send => State.doSend tag body
  | .queryStation => State.doQueryStation tag
  | .queryZone => State.doQueryZone tag body
  | .queryMembers => State.doQueryMembers tag body
  | .queryScene => State.doQueryScene tag body
  | .subscribe => State.doSubscribe tag body
  | .restart => State.doRestart tag

/-- A complete frame of type, tag and body bytes: the request its type names, or UNKNOWN TYPE (R182, R212). -/
def State.takeFrame (s : State) (stored : List Byte) : State :=
  let tag := stored.getD 1 0#8
  match RequestType.ofByte (stored.getD 0 0#8) with
  | some t => s.takeRequest t tag (stored.drop 2) (t.action tag (stored.drop 2))
  | none => if s.cp.slot.isSome then s.setCp { s.cp with overrun := true } else s.refuse tag .unknownType

/-- The receive assembler replaced. -/
def State.setAssembler (s : State) (a : Assembler) : State := s.setCp { s.cp with assembler := a }

/-- The partial frame is discarded and a LINK ERROR answered (R179, R181). -/
def State.linkFault (s : State) : State :=
  let hunting := s.setAssembler .hunting
  hunting.setCp hunting.cp.linkError

/-- The assembler takes a byte (R179, R181). -/
def State.takeByte (s : State) (b : Byte) (stop : Bool) : State :=
  let a := s.cp.assembler
  match a.phase with
  | .hunt => if stop ∧ b = Config.startByte then s.setAssembler { a with phase := .length } else s
  | .length =>
    if stop ∧ 2 ≤ b.toNat ∧ b.toNat ≤ 50 then s.setAssembler ⟨.collect, b.toNat, [], b⟩ else s.linkFault
  | .collect =>
    if stop then
      if a.stored.length < a.need then s.setAssembler { a with stored := a.stored ++ [b], sum := a.sum + b }
      else if a.sum + b = 0#8 then (s.setAssembler .hunting).takeFrame a.stored
      else s.linkFault
    else s.linkFault

/-- BYTE_RECEIVED (R179): a byte on CRXD, which is not read in RESET (R178). -/
def execByteReceived (data : Byte) (stop : Bool) (s : State) : Host.Outcome State Fault Refusal :=
  .next (if s.station = .reset then s else s.takeByte data stop)

/-- FRAME_GAP_TIMEOUT (R180): a partial frame is discarded without a reply. -/
def execFrameGapTimeout (s : State) : Host.Outcome State Fault Refusal :=
  .next (if s.cp.assembler.phase = .hunt then s else s.setAssembler .hunting)

/-! ### The end of a transmitted frame (R195, R196) -/

/-- CP at the end of a frame: a reply leaves its slot empty, and the transmitter chooses again (R192, R195). -/
def Cp.frameEnd (cp : Cp) (f : Sending) : Cp := (if f.isReply then { cp with slot := none } else cp).choose

/-- FRAME_TRANSMITTED (R195): the end of the stop bit of a frame's last byte. The end of a RESTART's ACCEPT is the warm
restart (R191, R196). -/
def execFrameTransmitted (s : State) : Host.Outcome State Fault Refusal :=
  .next (match s.cp.sending with
  | none => s
  | some f => if f.isReply ∧ s.cp.restart then s.warmRestart else s.setCp (s.cp.frameEnd f))

end Sys2Proof.Machine
end

