-- ==== Sys2Proof/Machine/Fields.lean ====
section
/-! DEFINITION. The fields of a frame, cell by cell: COUNT_FIELD, PRESENCE_CELL, CLAIM_FIELD, MESSAGE and VETO_CELL.
Each cell's reading is one happening. A reading given for a cell that the station does not read is not taken. -/

namespace Sys2Proof.Machine

/-- The station reads the cell with number `k` of a field next. -/
def State.reads (s : State) (k : Nat) : Bool := s.readsFields && s.lc.nextCell == k

/-- The next cell's reading has been taken. -/
def Lc.advance (lc : Lc) : Lc := { lc with nextCell := lc.nextCell + 1 }

/-- The happening goes on unless the station has entered LINE FAULT, which abandons the field (R23). -/
def Work.unlessFaulted (w : Work) (f : Work → Work) : Work := if w.s.station = .lineFault then w else f w

/-! ### The count field (R18, R19, R36) -/

/-- A sender of 1 that reads PULLED stops sending; the reading joins the field (R18). -/
def Lc.readCount (lc : Lc) (sent : Option Bool) (r : Reading) : Lc :=
  { lc.advance with
    countSending := lc.countSending && !(sent == some true && !r)
    countBits := lc.countBits ++ [r] }

/-- The value V of a count field (R18). -/
def countValue (bits : List Bool) : Byte := BitVec.ofNat 8 (natOfBits bits)

/-- The join bookkeeping at a complete count field (R36). -/
def Mu.hearCount (mu : Mu) (v : Byte) : Mu :=
  { mu with pairHeld := mu.lastCount == some (v - 1), lastCount := some v }

/-- The end of cell 10: the frame count becomes V; a station that was ACTIVE at the cell's start, as `active` says, and
whose count differed takes a slip, and a LISTENING one keeps its bookkeeping (R6, R18, R19, R36). -/
def Work.countComplete (w : Work) (active : Bool) : Work :=
  let v := countValue w.s.lc.countBits
  let slipped := active && w.s.lc.count != v
  let adopted := w.on fun s => s.setLc { s.lc with count := v, countRead := true }
  let told := if slipped then
      (adopted.on fun s => s.setLc { s.lc with slips := min Config.maxByte (s.lc.slips + 1) }).line .countSlip
    else adopted
  if told.s.station = .listening then told.on fun s => s.setMu (s.mu.hearCount v) else told

/-- One cell of the count field, judged by the station state at its start (R6). DESIGN CHOICE (notes/assumptions/25.md):
a cell that a transition interrupts before its mid-cell sample has no reading, and the spec does not say what the field
takes for it; a field takes consecutive readings only, so the sender gives such a cell one. -/
def countCell (order : OfferOrder) (s : State) (r : Reading) : State :=
  let k := s.lc.nextCell
  if s.readsFields ∧ 3 ≤ k ∧ k ≤ 10 then
    let w := if s.driveFaulty k r then (Work.start s).driveFault else Work.start s
    (w.unlessFaulted fun w =>
      let w := w.on fun x => x.setLc (x.lc.readCount (s.sends k) r)
      if k = 10 then w.countComplete (s.station == .active) else w).finish order
  else s

/-- COUNT_FIELD (R18): readings of the next cells of 3 to 10. -/
def execCountField (cells : List Reading) (order : OfferOrder) (s : State) : Host.Outcome State Fault Refusal :=
  .next (cells.foldl (countCell order) s)

/-! ### The presence cell (R20, R37, R39, R52) -/

/-- A record after a presence reading: the new record, and whether a MEMBER event is offered, joined or lost (R52). -/
def Member.read (m : Member) (r : Reading) : Member × Option Bool :=
  match m.present, r with
  | false, false => ({ m with present := true, misses := 0 }, some true)
  | false, true => (m, none)
  | true, false => ({ m with misses := 0 }, none)
  | true, true => if m.misses = 0 then ({ m with misses := 1 }, none) else (.absent, some false)

/-- The reading of the station's own presence cell (R37, R39). -/
def Work.ownPresence (w : Work) (r : Reading) : Work :=
  match w.s.station with
  | .listening =>
    let w := w.on fun s => s.setMu { s.mu with ownFree := r }
    if r then w else w.duplicate w.s.lc.count
  | .muted => if r then w else w.duplicate w.s.lc.count
  | _ => w

/-- The reading of another station's presence cell (R52). -/
def Work.otherPresence (w : Work) (i : Fin 32) (r : Reading) : Work :=
  let out := w.s.mu.members[i].read r
  (w.on fun s => s.setMu { s.mu with members := s.mu.members.set i out.1 }).members
    (out.2.toList.map fun joined => .member i joined)

/-- The index of the frame's presence cell, the count mod 32 (R20). -/
def State.presenceIndex (s : State) : Fin 32 := Fin.ofNat 32 s.lc.count.toNat

/-- PRESENCE_CELL (R20): the reading of cell 11 of a frame whose count field was read whole. -/
def execPresenceCell (r : Reading) (order : OfferOrder) (s : State) : Host.Outcome State Fault Refusal :=
  .next (if s.reads 11 ∧ s.lc.countRead then
    let w := if s.driveFaulty 11 r then (Work.start s).driveFault else Work.start s
    (w.unlessFaulted fun w =>
      let w := w.on fun x => x.setLc x.lc.advance
      if s.presenceIndex = s.number then w.ownPresence r else w.otherPresence s.presenceIndex r).finish order
  else s)

/-! ### The claim field (R9, R21, R61, R62, R89 to R91, R140) -/

/-- The start of cell 12: what is presented contends, the head going IN FLIGHT or the item being fixed (R89, R140). -/
def State.openClaim (s : State) : State :=
  if s.reads 12 ∧ s.lc.claimOpen = false ∧ s.msu.frame.phase = .claim then
    match s.presents with
    | none => s.setLc { s.lc with claimOpen := true }
    | some (c, item) =>
      let s := s.setLc { s.lc with claimOpen := true, contest := some c }
      match c.by_ with
      | .queue => s.setCq s.cq.launch
      | .generator => s.setRg { s.rg with presented := item }
  else s

/-- The bit stream of a message: kind, data, then check, the check going on from the claim's (R58, R62). -/
def streamOf (check : Byte) (m : Msg) : List Bool :=
  let run := bitsOfNat 4 m.kind ++ m.bits
  run ++ bitsOfByte (checkFrom check run)

/-- The record of a frame whose claim this station won (R61, R62). DESIGN CHOICE (notes/assumptions/33.md): R66 has a
receiver feed cells 20 on into its check register, and no rule says what the originator's holds after the win; it keeps
its value after the claim, and the check code of the stream is computed apart. -/
def FrameRecord.won (f : FrameRecord) (c : Contest) (m : Option Msg) : FrameRecord :=
  { f with
    phase := .message
    role := .originator
    claim := c.claim
    stream := match m with
      | some m => streamOf f.check m
      | none => []
    presenter := some c.by_ }

/-- The end of cell 19: an empty claim, a win, or a claim of another station (R9, R61). -/
def State.claimComplete (s : State) : State :=
  let claim := byteOfBits s.lc.claimBits
  let f := s.msu.frame
  if claim = 0xFF#8 then
    let s := s.endContest
    (s.setLc { s.lc with claimEmpty := true }).setMsu { s.msu with frame := { f with phase := .noMessage, claim := claim } }
  else
    match s.lc.contest with
    | some c =>
      (s.setMsu { s.msu with frame := f.won c (s.wonMsg c.by_) }).setLc { s.lc with contest := none }
    | none =>
      s.setMsu { s.msu with
        frame := { f with phase := .message, role := .receiver, claim := claim, faultFound := claimPrio claim == 7 } }

/-- LC and MSU take a claim reading (R21, R61). -/
def State.readClaim (s : State) (r : Reading) : State :=
  (s.setLc { s.lc.advance with claimBits := s.lc.claimBits ++ [r] }).setMsu
    { s.msu with frame := { s.msu.frame with check := checkStep s.msu.frame.check r } }

/-- One cell of the claim field. A contest ends at a loss, at a drive fault, and when the station has left ACTIVE (R21,
R91). -/
def claimCell (order : OfferOrder) (s : State) (r : Reading) : State :=
  let k := s.lc.nextCell
  if s.readsFields ∧ s.lc.claimOpen ∧ s.msu.frame.phase = .claim ∧ 12 ≤ k ∧ k ≤ 19 then
    let s := if s.station = .active then s else s.endContest
    let lost := s.sends k == some (!r)
    let w := if lost then (Work.start s).on State.endContest else Work.start s
    let w := if s.driveFaulty k r then w.driveFault else w
    (w.unlessFaulted fun w =>
      let w := w.on fun x => x.readClaim r
      if k = 19 then w.on State.claimComplete else w).finish order
  else s

/-- CLAIM_FIELD (R21): the start of cell 12, and readings of the next cells of 12 to 19. -/
def execClaimField (cells : List Reading) (order : OfferOrder) (s : State) : Host.Outcome State Fault Refusal :=
  .next (cells.foldl (claimCell order) s.openClaim)

/-! ### The message (R22, R63, R66, R67) -/

/-- The frame record replaced. -/
def State.setFrame (s : State) (f : FrameRecord) : State := s.setMsu { s.msu with frame := f }

/-- The originator reads back the cell: the first difference from what it sent is a mismatch, which withdraws the
stream, decides the veto and adds 4 (R41, R63). DESIGN CHOICE (notes/assumptions/29.md): R59 has the record hold the
data sent so far, and does not say what it holds after the withdrawal; the model goes on recording the bits of the
stream. -/
def Work.readBack (w : Work) (r : Reading) : Work :=
  let f := w.s.msu.frame
  let sent := (f.stream[f.cells.length]?).getD true
  let differs := !f.mismatch && r != sent
  let kept := w.on fun s =>
    (s.setLc s.lc.advance).setFrame
      { f with cells := f.cells ++ [sent], mismatch := f.mismatch || differs, veto := f.veto || differs }
  if differs then kept.raise 4 else kept

/-- The record after a receiver's reading of its next cell, with the tests that end at that cell (R58, R66, R67). -/
def FrameRecord.receive (f : FrameRecord) (r : Reading) : FrameRecord :=
  let j := f.cells.length
  let g := { f with cells := f.cells ++ [r] }
  let n := dataLength g.kind
  let check := if j < 4 ∨ j < 4 + 8 * n then checkStep f.check r else f.check
  let unassigned := j == 3 && decide (10 ≤ g.kind)
  let badData := decide (4 ≤ j) && j == 3 + 8 * n && malformed g.kind g.data
  let badCheck := decide (4 ≤ j) && j == 11 + 8 * n && g.checkCells != bitsOfByte check
  let badPad := decide (12 + 8 * n ≤ j) && !r
  { g with check := check, faultFound := f.faultFound || unassigned || badData || badCheck || badPad }

/-- The next cell that a receiver reads is a pad cell (R8). -/
def FrameRecord.atPad (f : FrameRecord) : Bool :=
  decide (4 ≤ f.cells.length) && decide (12 + 8 * dataLength f.kind ≤ f.cells.length)

/-- A receiver takes the reading of its next cell; a PULLED pad cell is a disturbance too (R26, R66). -/
def Work.receive (w : Work) (r : Reading) : Work :=
  let f := w.s.msu.frame
  let w := if f.atPad && !r then w.disturb else w
  w.on fun s => (s.setLc s.lc.advance).setFrame (f.receive r)

/-- One cell of the message. A drive fault of the cell is taken before or after the reading's other effect, as the
operand says; at an entry to LINE FAULT taken first, the reading is not handed over (R75). -/
def messageCell (faultFirst : Bool) (order : OfferOrder) (s : State) (r : Reading) : State :=
  let k := s.lc.nextCell
  if s.readsFields ∧ s.msu.frame.phase = .message ∧ 20 ≤ k ∧ k ≤ 88 then
    let w := Work.start s
    if s.msu.frame.role = .receiver then (w.receive r).finish order
    else if s.driveFaulty k r then
      if faultFirst then (w.driveFault.unlessFaulted fun w => w.readBack r).finish order
      else ((w.readBack r).driveFault).finish order
    else (w.readBack r).finish order
  else s

/-- MESSAGE (R22, R66): readings of the next cells of 20 to 88. -/
def execMessage (cells : List Reading) (faultFirst : Bool) (order : OfferOrder) (s : State) :
    Host.Outcome State Fault Refusal :=
  .next (cells.foldl (messageCell faultFirst order) s)

/-! ### The veto cell (R69 to R72, R79, R92, R93, R136, R139, R143) -/

/-- The result that a reading of cell 89 gives (R70). -/
def FrameRecord.verdict (f : FrameRecord) (r : Reading) : Verdict :=
  if r then (if f.faultFound || f.mismatch then .discarded else .settled) else .void

/-- The settled, void or discard count rises, never above 65535 (R79). -/
def Msu.countResult (m : Msu) : Verdict → Msu
  | .settled => { m with settledCount := min Config.maxWord (m.settledCount + 1) }
  | .void => { m with voidCount := min Config.maxWord (m.voidCount + 1) }
  | .discarded => { m with discardCount := min Config.maxWord (m.discardCount + 1) }
  | .cutShort => m

/-- The message of the record as a settled message (R70). -/
def FrameRecord.settledAs (f : FrameRecord) (count : Byte) : Settled :=
  ⟨f.claim, f.kind, f.data, count, f.role == .originator⟩

/-- The record and the slot after the result (R59, R70). -/
def State.takeResult (s : State) (v : Verdict) : State :=
  let f := s.msu.frame
  let m := s.msu.countResult v
  (s.setMsu { m with
    frame := { f with phase := .result, result := some v }
    slot := if v = .settled then some (f.settledAs s.lc.count) else none }).setLc s.lc.advance

/-- SETTLED at the generator: the cursor passes the settled position, the pair's correction mark is cleared, and
nothing is presented (R136, R143). -/
def State.statementSettled (s : State) : State :=
  match s.rg.presented with
  | none => s
  | some i =>
    let marked := match i.pair with
      | some (sc, z) => s.setSs (s.ss.clearMark sc z)
      | none => s
    match i with
    | .correction _ _ => marked.setRg s.rg.drop
    | .rotation p => marked.setRg { s.rg.drop with cursor := rotationFrom p 1 }

/-- An own message has settled: the last own settle and the settle gap (R72, R139). -/
def State.ownSettled (s : State) : State := s.setRg { s.rg with lastOwn := some s.lc.count, gap := 0 }

/-- The outcome at the presenting block (R72, R92, R93, R143). -/
def Work.outcomeOf (w : Work) (v : Verdict) (p : Option Presenter) : Work :=
  if v = .settled then
    let w := w.on State.ownSettled
    match p with
    | some .queue => (w.on fun s => s.setCq s.cq.sent.1).outcomes w.s.cq.sent.2
    | some .generator => w.on State.statementSettled
    | none => w
  else w.voided p

/-- The start of cell 89: an ACTIVE receiver with a fault found decides to veto (R69). -/
def State.decideVeto (s : State) : State :=
  let f := s.msu.frame
  s.setFrame { f with veto := f.veto || (s.station == .active && f.faultFound) }

/-- The reading of cell 89 at MSU: the receive fault handed to MU, the result and what follows from it (R41, R42, R69 to
R72). -/
def Work.readVeto (w : Work) (r : Reading) : Work :=
  let f := w.s.msu.frame
  let v := f.verdict r
  let w := if f.role = .receiver ∧ f.faultFound = true then w.raise 1 else w
  let w := w.on fun s => s.takeResult v
  let w := if v = .discarded then w.on State.markZones else w
  if f.role = .originator then
    (if v = .void ∧ f.mismatch = false then w.raise 4 else w).outcomeOf v f.presenter
  else w

/-- VETO_CELL (R22, R69, R70): the reading of cell 89. -/
def execVetoCell (r : Reading) (faultFirst : Bool) (order : OfferOrder) (s : State) :
    Host.Outcome State Fault Refusal :=
  .next (if s.reads 89 ∧ s.msu.frame.phase = .message then
    let w := Work.start s.decideVeto
    if s.driveFaulty 89 r then
      if faultFirst then (w.driveFault.unlessFaulted fun w => w.readVeto r).finish order
      else ((w.readVeto r).driveFault).finish order
    else (w.readVeto r).finish order
  else s)

end Sys2Proof.Machine
end

