-- ==== Sys2Proof/Machine/Marks.lean ====
section
/-! DEFINITION. A frame mark of every kind as one operation (R12), and the four commands that take one:
FRAME_TIMER_EXPIRY, FRAME_MARK, LOCAL_FRAME_MARK and FOUNDING. The order of the blocks' work follows the rules where
they give one; what they leave open is an operand (`MarkObs`). -/

namespace Sys2Proof.Machine

/-- The frame count after a mark (R17). -/
def countAfter (k : MarkKind) (count : Byte) : Byte :=
  match k with
  | .founding => 0
  | _ => count + 1

/-- The frame count that a LINE event of a mark carries: the one before or, where it is `counted`, after the increase
(R193). -/
def markCount (k : MarkKind) (counted : Bool) (s : State) : Byte :=
  if counted then countAfter k s.lc.count else s.lc.count

/-- The settled message that a mark hands over: none at the founding mark (R77, R106). -/
def handedOver (k : MarkKind) (s : State) : Option Settled :=
  match k with
  | .founding => none
  | _ => s.msu.slot

/-- The frame record at a mark: a message still unfinished is CUT SHORT (R73). -/
def FrameRecord.cut (f : FrameRecord) : FrameRecord :=
  if f.phase = .message then { f with phase := .result, result := some .cutShort } else f

/-- A frame that ends with its message unfinished: DISTURBANCE at a cut, a contest ended as lost, a message CUT SHORT,
and the generator's item dropped (R16, R26, R73, R91, R143). The claim queue's part is its task `frameEnd`. -/
def Work.endFrame (k : MarkKind) (m : MarkObs) (w : Work) : Work :=
  let told := if k = .cutShort ∧ w.s.lc.disturbance = false then
      w.lineWith .disturbance (markCount k m.cutCounted w.s)
    else w
  told.on fun s =>
    ((s.setRg (if s.inFrame .generator then s.rg.drop else s.rg)).setLc { s.lc with contest := none }).setMsu
      { s.msu with frame := s.msu.frame.cut }

/-- The join test of a LISTENING station (R36, R38). -/
def Work.joinTest (w : Work) : Work :=
  let mu := w.s.mu
  if w.s.lc.countRead && mu.pairHeld && mu.ownFree then w.enterMembership .joined
  else if w.s.lc.countRead then w
  else w.on fun s => s.setMu { mu with lastCount := none, pairHeld := false }

/-- The clean frame's decrement, and the return of a MUTED station (R44, R46). -/
def Work.cleanTest (w : Work) : Work :=
  let w := if w.s.cleanFrame then w.on fun s => s.setMu { s.mu with score := s.mu.score - 1 } else w
  if w.s.station = .muted ∧ w.s.mu.score ≤ Config.scoreLow then
    w.changeStanding .active .scoreLow
  else w

/-- MU's work on the frame that the mark ends: the drive-fault history, then the test of its state (R38, R43, R44, R46,
R48). -/
def Work.judgeFrame (k : MarkKind) (w : Work) : Work :=
  let faulted := w.s.station.ticking && w.s.lc.driveFault
  let w := w.on fun s => s.setMu { s.mu with faultBefore := faulted }
  match k with
  | .founding => w.enterMembership .founded
  | .local_ => w
  | _ => if w.s.station = .listening then w.joinTest else w.cleanTest

/-- The zone a statement names (R53). -/
def Msg.statedZone : Msg → Option (Fin 16)
  | .zoneStatement z _ _ _ _ | .holdStatement z _ _ _ _ | .sceneStatement _ z _ _ _ => some z
  | _ => none

/-- A record after settled evidence (R53). -/
def Member.hear (r : Member) (zone : Option (Fin 16)) : Member :=
  ⟨true, 0, match zone with
    | some z => r.zones ||| (1#16 <<< z.val)
    | none => r.zones⟩

/-- A settled message as evidence at MU: the origin's record, or the detection of a duplicate number (R39, R53). -/
def Work.evidence (k : MarkKind) (m : MarkObs) (w : Work) : Work :=
  match handedOver k w.s with
  | none => w
  | some x =>
    let o := claimOrigin x.claim
    if o = w.s.number then
      if w.s.station.ticking && !x.own then w.duplicate (markCount k m.duplicateCounted w.s) else w
    else
      let zone := (readMsg x.kind x.bits).bind Msg.statedZone
      let before := w.s.mu.members[o]
      (w.on fun s => s.setMu { s.mu with members := s.mu.members.set o (before.hear zone) }).members
        (if before.present then [] else [.member o true])

/-- Stages (a) to (c) of ZE with the scene store's part, and the ZONE events in stage order (R105, R106, R123, R126,
R130). `fullActive` says that the ended frame was spent ACTIVE throughout (R121). -/
def Work.zoneStages (k : MarkKind) (fullActive : Bool) (w : Work) : Work :=
  let s := w.s
  let c := s.conf
  let msg := (handedOver k s).bind fun x => readMsg x.kind x.bits
  let ready := if k = .local_ then s.ze.countFailsafe c else s.ze
  let a := ready.stage c (ZoneRecord.stageA s.ss.stored msg fullActive)
  let b := a.1.stage c fun _ r => r.stageB
  let d := b.1.stage c fun _ r => r.stageC
  let ss := match msg with
    | some m => s.ss.apply c ready m
    | none => s.ss
  (w.on fun s => (s.setZe d.1).setSs ss).zones (a.2 ++ b.2 ++ d.2)

/-- OU and RG at the mark: stage (d) with the latch, and the settle gap (R139, R148, R150, R154). -/
def State.outputsAtMark (k : MarkKind) (s : State) : State :=
  (s.setOu (s.ou.atMark s.conf k s.ze.zones)).setRg { s.rg with gap := min Config.maxGap (s.rg.gap + 1) }

/-- An offer of a key channel reaches the claim queue (R82, R167). -/
def Work.keyOffer (w : Work) (k : Fin 4) (req : Option Request) : Work :=
  match req with
  | none => w
  | some r =>
    let t := w.s.cq.take (.key k) w.s.conf.keys[k].prio r
    (w.on fun s => s.setCq t.cq).outcomes t.reports

/-- Key channel `k` at a mark: its sample, and the offer of what its gesture gives (R164 to R167). -/
def Work.keyAtMark (m : MarkObs) (w : Work) (k : Fin 4) : Work :=
  let out := w.s.ku.channels[k].atMark w.s.conf.keys[k] w.s.conf.longPress (m.keys.getLsbD k)
  (w.on fun s => s.setKu ⟨s.ku.channels.set k out.1⟩).keyOffer k out.2

/-- The ageing and staleness sweep (R96). -/
def Work.sweepAtMark (w : Work) : Work :=
  let out := w.s.cq.sweep w.s.conf.staleness
  (w.on fun s => s.setCq out.1).outcomes out.2

/-- A task takes its place behind those already there, once; the sweep brings the frame's end before it (R94). -/
def addTask (out : List QueueTask) (t : QueueTask) : List QueueTask :=
  if out.contains t then out
  else if t = .sweep ∧ out.contains .frameEnd = false then out ++ [.frameEnd, .sweep]
  else out ++ [t]

/-- The claim queue's tasks of a mark in the order of the operand, each once; tasks the operand does not name follow
(R88, R94, R164, R167). -/
def taskOrder (l : List QueueTask) : List QueueTask :=
  (l ++ ([QueueTask.frameEnd, .sweep, .key 0, .key 1, .key 2, .key 3] : List QueueTask)).foldl addTask []

/-- One task of the claim queue at a mark; `ended` says that the mark ends a contest or a message of the queue's, whose
entry then returns to QUEUED (R91, R94). -/
def Work.queueTask (m : MarkObs) (ended : Bool) (w : Work) : QueueTask → Work
  | .frameEnd => if ended then w.on fun s => s.setCq s.cq.land else w
  | .sweep => w.sweepAtMark
  | .key k => w.keyAtMark m k

/-- The COMMIT report of a settled message (R78, R193). -/
def Settled.commit (x : Settled) : Report :=
  .commit x.count x.claim x.kind (bytesOfBits (dataLength x.kind) x.bits)

/-- LC at the start of a new frame: count and cell numbering, indications cleared, no field read yet (R10 to R12, R14,
R17). A ticking station pulls the mark from here. -/
def Lc.newFrame (lc : Lc) (k : MarkKind) (ticking : Bool) : Lc :=
  { lc with
    drive := if ticking then (if k = .founding then .whole else { lc.drive with rest := true }) else .released
    markable := false
    framed := k != .local_
    timer := 0
    count := countAfter k lc.count
    driveFault := false
    disturbance := false
    claimEmpty := false
    nextCell := 3
    countSending := true
    countBits := []
    countRead := false
    claimOpen := false
    contest := none
    claimBits := [] }

/-- The new frame at LC, MSU and MU: the record cleared into CLAIM, or NO FRAME at a local mark, the slot emptied, and
MU's marks of the frame started (R12, R44, R60, R77, R121). -/
def State.newFrame (k : MarkKind) (s : State) : State :=
  ((s.setLc (s.lc.newFrame k s.station.ticking)).setMsu
    { s.msu with frame := .cleared (if k = .local_ then .noFrame else .claim), slot := none }).setMu
    { s.mu with memberFrame := s.station.ticking, activeFrame := s.station == .active, raised := false }

/-- A frame mark of kind `k` taken with what `m` brings (R12). -/
def takeMark (k : MarkKind) (m : MarkObs) (s : State) : State :=
  let judged := ((Work.start s).endFrame k m).judgeFrame k
  let applied := ((judged.evidence k m).zoneStages k s.fullActive).on (State.outputsAtMark k)
  let queued := (taskOrder m.queueOrder).foldl (Work.queueTask m (s.inFrame .queue)) applied
  ((queued.commits ((handedOver k s).toList.map Settled.commit)).on (State.newFrame k)).finish m.offers

/-- FRAME_TIMER_EXPIRY (R11, R13): a ticking station whose timer stands at its own frame length issues a mark, taken at
the rest sample of its cell 0 (R12). DESIGN CHOICE (notes/assumptions/27.md): the mark is taken whatever that sample
reads, since no rule says what follows when it reads FREE. -/
def execFrameTimerExpiry (m : MarkObs) (s : State) : Host.Outcome State Fault Refusal :=
  .next (if s.station.ticking ∧ s.lc.framed ∧ s.lc.timer = s.conf.frameLength then takeMark .issued m s else s)

/-- A LISTENING station's silence count has reached the founding threshold: the station founds (R34, R35). -/
def State.founds (s : State) : Bool := s.station == .listening && decide (s.conf.foundingWidths ≤ s.lc.silence)

/-- FRAME_MARK (R12, R14 to R16): a mark recognised from the line, in LISTENING, ACTIVE or MUTED, in a cell that began
with a FREE-to-PULLED transition. A station that founds takes its own mark there (R35). -/
def execFrameMark (m : MarkObs) (s : State) : Host.Outcome State Fault Refusal :=
  .next (if s.station.reading ∧ s.lc.markable ∧ s.founds = false then takeMark s.recognisedKind m s else s)

/-- LOCAL_FRAME_MARK (R11, R23): in LINE FAULT the timer stands at the own frame length. -/
def execLocalFrameMark (m : MarkObs) (s : State) : Host.Outcome State Fault Refusal :=
  .next (if s.station = .lineFault ∧ s.lc.timer = s.conf.frameLength then takeMark .local_ m s else s)

/-- FOUNDING (R34): a LISTENING station's silence count has reached three own frame lengths; the entry to membership
and the founding mark. DESIGN CHOICE (notes/assumptions/31.md): R13 and R34 have the mark begin at the start of the next
cell, and where the count reaches its threshold at a cell boundary the spec does not say which cell that is; it is the
one that begins there, pulled whole. A threshold reached within a cell founds at the next cell start, which a transition
may give (R4, R35). -/
def execFounding (m : MarkObs) (s : State) : Host.Outcome State Fault Refusal :=
  .next (if s.founds then takeMark .founding m s else s)

end Sys2Proof.Machine
end

