-- ==== Sys2Proof/Machine/Timers.lean ====
section
/-! DEFINITION. The happenings that the table lists as rows of their own although they come about inside a frame mark:
FADE_END, HOLD_EXPIRY, AGED, FAILSAFE, STALE, LONG_PRESS and REPEAT. Each is the part of the mark's work that concerns
one record, entry or channel, by the same operation that the mark uses (notes/assumptions/4.md). -/

namespace Sys2Proof.Machine

/-- One stage of ZE at the record of zone `z` alone, with its ZONE event (R126). -/
def State.stageOne (s : State) (z : Fin 16) (f : ZoneRecord → ZoneRecord × Option ZoneCause) : State :=
  let out := f s.ze.zones[z]
  (((Work.start s).on fun s => s.setZe { s.ze with zones := s.ze.zones.set z out.1 }).zones
    (out.2.toList.map fun cause => .zone z cause out.1.target out.1.current)).finish []

/-- The record of zone `z` is live at a station that takes marks (R103, R105). -/
def State.live (s : State) (z : Fin 16) : Bool := s.station.running && s.conf.tracks z

/-- FADE_END (R114): the last fade step of zone `z`. -/
def execFadeEnd (z : Fin 16) (s : State) : Host.Outcome State Fault Refusal :=
  .next (if s.live z ∧ s.ze.zones[z].fade = 1 then s.stageOne z ZoneRecord.stageC else s)

/-- The hold's next count is its last (R115). -/
def ZoneRecord.holdEnds (r : ZoneRecord) : Bool := r.hold.any fun h => decide (h.remainder ≤ 1)

/-- HOLD_EXPIRY (R115): the last count of zone `z`'s hold. -/
def execHoldExpiry (z : Fin 16) (s : State) : Host.Outcome State Fault Refusal :=
  .next (if s.live z ∧ s.ze.zones[z].holdEnds then s.stageOne z ZoneRecord.stageB else s)

/-- The record's next counted age is its last (R121). -/
def ZoneRecord.agesOut (r : ZoneRecord) : Bool := r.unverified && decide (Config.agedFrames ≤ r.age + 1)

/-- AGED (R121): the last count of zone `z`'s unverified age, in a frame spent ACTIVE throughout. -/
def execAged (z : Fin 16) (s : State) : Host.Outcome State Fault Refusal :=
  .next (if s.live z ∧ s.ze.zones[z].agesOut ∧ s.fullActive then s.stageOne z fun r => r.grow true else s)

/-- FAILSAFE (R123): the next count of the failsafe count reaches its limit. -/
def execFailsafe (s : State) : Host.Outcome State Fault Refusal :=
  .next (if s.station = .lineFault ∧ s.ze.failsafe + 1 = s.conf.failLimit then s.setZe (s.ze.countFailsafe s.conf)
    else s)

/-- STALE (R96): the sweep at the entry at place `i` of the claim queue. -/
def execStale (i : Nat) (s : State) : Host.Outcome State Fault Refusal :=
  .next (if s.station.running then
    let out := s.cq.sweepOne s.conf.staleness i
    (((Work.start s).on fun s => s.setCq out.1).outcomes out.2).finish []
  else s)

/-- A mark of channel `k`'s press in which neither a press nor a release is taken, with its offer (R166, R167). -/
def State.holdKey (s : State) (k : Fin 4) : State :=
  let out := s.ku.channels[k].hold s.conf.keys[k] s.conf.longPress
  (((Work.start s).on fun s => s.setKu ⟨s.ku.channels.set k out.1⟩).keyOffer k out.2).finish []

/-- Channel `k` is sampled and pressed (R163, R175, R176). -/
def State.keyHeld (s : State) (k : Fin 4) : Bool :=
  s.station.running && s.conf.keys[k].func != .off && s.ku.channels[k].pressed

/-- LONG_PRESS (R166): the press age of channel `k` reaches the long-press threshold. -/
def execLongPress (k : Fin 4) (s : State) : Host.Outcome State Fault Refusal :=
  .next (if s.keyHeld k ∧ s.ku.channels[k].reaches s.conf.longPress then s.holdKey k else s)

/-- REPEAT (R166): the repeat count of channel `k` reaches its repeat interval. -/
def execRepeatDue (k : Fin 4) (s : State) : Host.Outcome State Fault Refusal :=
  .next (if s.keyHeld k ∧ s.ku.channels[k].repeatsNext s.conf.keys[k] then s.holdKey k else s)

end Sys2Proof.Machine
end

