-- ==== Sys2Proof/Machine/Trains.lean ====
section
/-! DEFINITION. The instants of the pulse trains within a cell: OUTPUT_PERIOD_START and PULSE_EDGE. What a pin shows
follows from the frame position (`State.dimPin`). -/

namespace Sys2Proof.Machine

/-- The frame position rises to `p` in a station that drives its outputs (R148, R153). -/
def State.reach (s : State) (p : Nat) : State := if s.station.running then s.setOu (s.ou.reach p) else s

/-- OUTPUT_PERIOD_START (R151): the frame position reaches the start of period `n` of channel `ch`. -/
def execOutputPeriodStart (ch : Fin 4) (n : Nat) (s : State) : Host.Outcome State Fault Refusal :=
  .next (match s.ou.basis with
  | some b => s.reach (n * s.conf.outputs[ch].period b)
  | none => s)

/-- PULSE_EDGE (R152): the frame position reaches an edge of channel `ch`. -/
def execPulseEdge (ch : Fin 4) (pos : Nat) (s : State) : Host.Outcome State Fault Refusal :=
  .next (match s.ou.basis with
  | some b => if s.conf.outputs[ch].edgeAt b s.ou.latched[ch] pos then s.reach pos else s
  | none => s)

end Sys2Proof.Machine
end

