-- ==== Sys2Proof/Machine/Dispatch.lean ====
section
/-! DEFINITION. One arm per command of spec/opcode_table.json: its meaning. -/

namespace Sys2Proof.Machine

def exec (i : Instr) (s : State) : Host.Outcome State Fault Refusal :=
  match i with
  | .coldReset => Sys2Proof.Machine.execColdReset s
  | .resetEnd => Sys2Proof.Machine.execResetEnd s
  | .memoryReadEnd block => Sys2Proof.Machine.execMemoryReadEnd block s
  | .byteReceived data stop => Sys2Proof.Machine.execByteReceived data stop s
  | .frameGapTimeout => Sys2Proof.Machine.execFrameGapTimeout s
  | .configure tag body => Sys2Proof.Machine.execConfigure tag body s
  | .send tag body => Sys2Proof.Machine.execSend tag body s
  | .queryStation tag body => Sys2Proof.Machine.execQueryStation tag body s
  | .queryZone tag body => Sys2Proof.Machine.execQueryZone tag body s
  | .queryMembers tag body => Sys2Proof.Machine.execQueryMembers tag body s
  | .queryScene tag body => Sys2Proof.Machine.execQueryScene tag body s
  | .subscribe tag body => Sys2Proof.Machine.execSubscribe tag body s
  | .restart tag body => Sys2Proof.Machine.execRestart tag body s
  | .frameTransmitted => Sys2Proof.Machine.execFrameTransmitted s
  | .cellStart o => Sys2Proof.Machine.execCellStart o s
  | .frameTimerExpiry m => Sys2Proof.Machine.execFrameTimerExpiry m s
  | .frameMark m => Sys2Proof.Machine.execFrameMark m s
  | .localFrameMark m => Sys2Proof.Machine.execLocalFrameMark m s
  | .fadeEnd z => Sys2Proof.Machine.execFadeEnd z s
  | .holdExpiry z => Sys2Proof.Machine.execHoldExpiry z s
  | .aged z => Sys2Proof.Machine.execAged z s
  | .failsafe => Sys2Proof.Machine.execFailsafe s
  | .stale place => Sys2Proof.Machine.execStale place s
  | .longPress k => Sys2Proof.Machine.execLongPress k s
  | .repeatDue k => Sys2Proof.Machine.execRepeatDue k s
  | .countField cells order => Sys2Proof.Machine.execCountField cells order s
  | .presenceCell r order => Sys2Proof.Machine.execPresenceCell r order s
  | .claimField cells order => Sys2Proof.Machine.execClaimField cells order s
  | .message cells faultFirst order => Sys2Proof.Machine.execMessage cells faultFirst order s
  | .vetoCell r faultFirst order => Sys2Proof.Machine.execVetoCell r faultFirst order s
  | .stuckPull o order => Sys2Proof.Machine.execStuckPull o order s
  | .founding m => Sys2Proof.Machine.execFounding m s
  | .lineClear => Sys2Proof.Machine.execLineClear s
  | .outputPeriodStart ch n => Sys2Proof.Machine.execOutputPeriodStart ch n s
  | .pulseEdge ch pos => Sys2Proof.Machine.execPulseEdge ch pos s

end Sys2Proof.Machine
end

