-- ==== Sys2Proof/Safety.lean ====
section
/-! DEFINITION. What a sound state of the station is: one predicate for each kind of state, each of which the rules say
holds at all times. They are the invariants that the statements speak of. -/

namespace Sys2Proof.Machine

/-- The station states that come before a configuration: RESET, LOADING and UNCONFIGURED. -/
def StationState.unready : StationState → Bool
  | .reset | .loading | .unconfigured => true
  | _ => false

/-! ### The line -/

/-- A station pulls the group line only while ACTIVE or MUTED (R7). -/
def DriveOk (s : State) : Prop := s.station.ticking = false → s.lc.drive = .released

/-- Every count and measure stays in its range: LC's slip count, silence count and clear stretch (R19, R27),
MSU's counts of results (R79), the settle gap (R138), the claim queue's ages and key counts (R80, R98), the failsafe
count (R123), and each key channel's press age and repeat count (R163); the settings that bound the last three are bytes
(R207, R209). -/
structure CountsOk (s : State) : Prop where
  slips   : s.lc.slips ≤ 255
  silence : s.lc.silence ≤ 765
  clear   : s.lc.clear ≤ 32
  settled : s.msu.settledCount ≤ 65535
  void    : s.msu.voidCount ≤ 65535
  discard : s.msu.discardCount ≤ 65535
  gap     : s.rg.gap ≤ 64
  keys    : ∀ k : Fin 4, s.cq.counts[k].sent ≤ 255 ∧ s.cq.counts[k].failed ≤ 255 ∧ s.cq.counts[k].stale ≤ 255 ∧
    s.cq.counts[k].dropped ≤ 255
  ages    : ∀ e ∈ s.cq.entries, e.age ≤ 255
  failsafe : s.ze.failsafe ≤ 2040 ∧ s.conf.failDelay ≤ 255
  presses : ∀ k : Fin 4, s.ku.channels[k].age ≤ 255 ∧ s.ku.channels[k].repeats ≤ 255 ∧ s.conf.keys[k].interval ≤ 255

/-! ### Membership -/

/-- The fault score and the member table: the score lies in 0..255 and below 64 in ACTIVE (R40); the own record is
PRESENT in ACTIVE alone and carries the tracked zones (R51); an ABSENT record of another station is empty (R50); and
before a configuration all of it is at its cold values (R31). -/
structure MembersOk (s : State) : Prop where
  score   : s.mu.score ≤ 255
  active  : s.station = .active → s.mu.score < 64
  own     : s.mu.members[s.number] = ownRecord s.conf s.station
  others  : ∀ i : Fin 32, i ≠ s.number → s.mu.members[i].present = false → s.mu.members[i] = .absent
  unready : s.station.unready = true →
    s.cl.config = none ∧ s.mu.score = 0 ∧ ∀ i : Fin 32, s.mu.members[i] = .absent

/-! ### The claim queue -/

/-- The list of the claim queue: at most 8 entries, at most one of them IN FLIGHT, attempts in 0..3 (R80), ordered by
priority (R81), each of an admission of its own (R83). -/
structure QueueOk (q : Cq) : Prop where
  size     : q.entries.length ≤ 8
  flight   : (q.entries.filter Entry.inFlight).length ≤ 1
  attempts : ∀ e ∈ q.entries, e.attempts ≤ 3
  order    : q.entries.Pairwise fun a b => a.prio ≤ b.prio
  distinct : q.entries.Pairwise fun a b => a.order ≠ b.order
  fresh    : ∀ e ∈ q.entries, e.order < q.nextOrder

/-- The queue has a claim in the contest of the frame (R89). -/
def State.queueContends (s : State) : Prop := ∃ c, s.lc.contest = some c ∧ c.by_ = .queue

/-- The queue has a message on the line (R90). -/
def State.queueSends (s : State) : Prop :=
  s.msu.frame.phase = .message ∧ s.msu.frame.role = .originator ∧ s.msu.frame.presenter = some .queue

/-- The claim queue and the frame agree: an entry is IN FLIGHT only while the queue contends or sends, and there is
neither a contest nor a message before the claim field has begun, nor in a station that reads no fields (R80, R89 to
R95). -/
structure FlightOk (s : State) : Prop where
  queue  : QueueOk s.cq
  reason : ∀ e ∈ s.cq.entries, e.inFlight = true → s.queueContends ∨ s.queueSends
  closed : s.lc.claimOpen = false ∨ s.station.reading = false →
    s.lc.contest = none ∧ s.msu.frame.phase ≠ .message

/-! ### Zones and scenes -/

/-- A hold's values are in range (R103). -/
def Hold.Ok (h : Hold) : Prop := 1 ≤ h.remainder ∧ h.remainder ≤ 61440 ∧ h.vacant ≤ 1023

/-- A zone record is sound: levels in range, a finished fade stands at its target (R103, R104), and no hold is present
at target 0 (R113). -/
structure ZoneRecord.Ok (r : ZoneRecord) : Prop where
  target  : r.target ≤ 1023
  current : r.current ≤ 1023
  lastOn  : 1 ≤ r.lastOn ∧ r.lastOn ≤ 1023
  fade    : r.fade ≤ 32768
  done    : r.fade = 0 → r.current = r.target
  hold    : ∀ h, r.hold = some h → h.Ok ∧ 0 < r.target
  age     : r.age ≤ 64

/-- Every zone record is sound, and every level that can reach one from the scene store or the failsafe setting is a
level (R103, R104, R113, R123, R128). -/
structure ZonesOk (s : State) : Prop where
  zones  : ∀ z : Fin 16, s.ze.zones[z].Ok
  scenes : ∀ (sc z : Fin 16) (l : Nat), (s.ss.entry sc z).level = some l → l ≤ 1023
  fail   : s.conf.failLevel ≤ 1023

/-! ### The companion port -/

/-- The report queue holds at most 16 reports (R194), the lost count lies in 0..255, and the transmitter is IDLE only
when nothing is available to it (R195). -/
structure PortOk (cp : Cp) : Prop where
  size : cp.queue.length ≤ 16
  lost : cp.lost ≤ 255
  idle : cp.sending = none → cp.queue = [] ∧ cp.slot = none

/-! ### The configuration -/

/-- The station-wide fields and the key records are in their ranges (R207, R209). -/
structure Configuration.Ok (c : Configuration) : Prop where
  width       : 1 ≤ c.widthCode ∧ c.widthCode ≤ 8
  frameLength : 96 ≤ c.frameLength ∧ c.frameLength ≤ 255
  restatement : 4 ≤ c.restatement ∧ c.restatement ≤ 64
  staleness   : 16 ≤ c.staleness ∧ c.staleness ≤ 255
  longPress   : 8 ≤ c.longPress ∧ c.longPress ≤ 255
  failDelay   : 1 ≤ c.failDelay ∧ c.failDelay ≤ 255
  failLevel   : c.failLevel ≤ 1023
  keys        : ∀ k : Fin 4, c.keys[k].prio ≤ 5

/-- The load state and the station state agree, and the block buffer is empty but in READING, where it holds fewer than
the 39 bytes that end the read (R198, R200); a published configuration is in range (R201, R207), and a restart is
pending only in a state that may be restarted (R183, R191). -/
structure LoadOk (s : State) : Prop where
  idle  : s.cl.load = .idle ↔ s.station = .reset
  reading : s.cl.load = .reading ↔ s.station = .loading
  empty : s.cl.load = .empty ↔ s.station = .unconfigured
  held  : s.cl.load = .held ↔ s.station.running = true
  buffer : s.cl.load ≠ .reading → s.cl.buffer = []
  filling : s.cl.buffer.length < 39
  shown : s.cl.config.isSome = true ↔ s.cl.load = .held
  range : ∀ c, s.cl.config = some c → c.Ok
  restart : s.cp.restart = true → s.station.running = true

/-! ### Messages and requests -/

/-- A message whose fields lie in the ranges of R56 and meet no condition of R57. -/
def Msg.InRange : Msg → Prop
  | .level _ _ l => l ≤ 1023
  | .step _ d => -511 ≤ d ∧ d ≤ 511 ∧ d ≠ 0
  | .toggle _ _ | .halt _ | .recall _ _ | .capture _ _ => True
  | .occupy _ _ _ v => v ≤ 1023
  | .zoneStatement _ t c r l => t ≤ 1023 ∧ c ≤ 1023 ∧ r ≤ 32768 ∧ 1 ≤ l ∧ l ≤ 1023 ∧ (r = 0 → c = t)
  | .holdStatement _ p r v c => r ≤ 61440 ∧ v ≤ 1023 ∧ (p = true → r ≠ 0) ∧ (p = false → r = 0 ∧ v = 0 ∧ c = 0)
  | .sceneStatement _ _ _ p l => l ≤ 1023 ∧ (p = false → l = 0)

/-- A request whose fields lie in the ranges of R56. -/
def Request.InRange (r : Request) : Prop := (r.toMsg fun _ => 0).InRange

/-- The body of a SEND of a request: priority, kind, and the kind's data bytes, a CAPTURE's without its generation
(R212). -/
def Request.sendBody (prio : Nat) (r : Request) : List Byte :=
  let m := r.toMsg fun _ => 0
  BitVec.ofNat 8 prio :: BitVec.ofNat 8 m.kind :: bytesOfBits (sendLength m.kind - 2) m.bits

/-- The message that waits in the settled slot is well formed (R57, R104). -/
def SlotOk (s : State) : Prop := ∀ x, s.msu.slot = some x → malformed x.kind x.bits = false

/-- The settings of a key channel give requests in range (R209). -/
structure KeySettings.Ok (c : KeySettings) : Prop where
  prio  : c.prio ≤ 5
  step  : c.func = .toggleDim → 1 ≤ c.param ∧ c.param ≤ 511
  level : c.func = .level → c.param ≤ 1023

/-- A bit stream that an originator may send: that of a well-formed message (R62). -/
def streamOk (l : List Bool) : Prop := l = [] ∨ ∃ check m, l = streamOf check m ∧ malformed m.kind m.bits = false

/-- The frame record agrees with the cell that is read next: no message cell is held in CLAIM; a message's cells are
those read since cell 20; a receiver that has read the data and found no fault has read well-formed data; and an
originator holds what it sent of a well-formed message (R59, R62, R66). -/
structure FrameOk (nextCell : Nat) (f : FrameRecord) : Prop where
  claim      : f.phase = .claim → f.cells = []
  aligned    : f.phase = .message → nextCell = 20 + f.cells.length
  received   : f.phase = .message → f.role = .receiver → f.faultFound = false → 4 ≤ f.cells.length →
    4 + 8 * dataLength f.kind ≤ f.cells.length → malformed f.kind f.data = false
  originated : f.phase = .message → f.role = .originator →
    streamOk f.stream ∧ f.cells = (f.stream ++ List.replicate 69 true).take f.cells.length

/-- Only well-formed messages reach the settled slot: the slot itself, which is empty in a station that reads no fields
(R75, R76), the frame record, the requests that wait, and the settings of the keys, which give requests (R57, R59, R80,
R209). -/
structure MessagesOk (s : State) : Prop where
  slot     : SlotOk s
  vacant   : s.station.reading = false → s.msu.slot = none
  frame    : FrameOk s.lc.nextCell s.msu.frame
  requests : ∀ e ∈ s.cq.entries, e.prio ≤ 5 ∧ e.req.InRange
  keys     : ∀ k : Fin 4, s.conf.keys[k].Ok

/-! ### Runs -/

/-- Commands executed one after another. -/
def execAll : List Instr → State → Host.Outcome State Fault Refusal
  | [], s => .next s
  | c :: cs, s =>
    match exec c s with
    | .next t => execAll cs t
    | .fault f => .fault f
    | .refused r => .refused r

end Sys2Proof.Machine
end

