-- ==== Sys2Proof/WellFormed.lean ====
section
/-! DEFINITION. Which commands are well formed: the operands the outside world can supply at that step. -/

namespace Sys2Proof

/-- A claim-queue order of a mark names the frame's end, the sweep and each key channel exactly once, the frame's end
before the sweep (R94, R164, R167). -/
def QueueTask.completeOrder (l : List QueueTask) : Bool :=
  l.length == 6 && l.contains .frameEnd && l.contains .sweep && l.contains (.key 0) && l.contains (.key 1)
    && l.contains (.key 2) && l.contains (.key 3) && decide (l.idxOf .frameEnd < l.idxOf .sweep)

/-- A mark observation is well formed when its claim-queue order is complete. -/
def MarkObs.wellFormed (m : MarkObs) : Bool := QueueTask.completeOrder m.queueOrder

/-- A cell observation is well formed when a line that has just become PULLED has been so for no time, a line whose
rest sample reads FREE has not been PULLED for longer than the ended cell lasted, and no restart within a cell is longer
ago than the cell's start. -/
def CellObs.wellFormed (o : CellObs) : Bool :=
  decide (o.since ≤ o.width) &&
    if o.transition then o.pulledFor == 0 else o.rest == .pulled || decide (o.pulledFor ≤ o.width)

/-- The same of a pull's observation. -/
def PullObs.wellFormed (o : PullObs) : Bool := decide (o.since ≤ o.width)

/-- A request body holds at most 48 bytes (section 9.2, R179). -/
def bodyWellFormed (body : List Byte) : Bool := decide (body.length ≤ 48)

/-- The well-formed commands. -/
def Instr.wellFormed : Instr → Bool
  | .coldReset => true
  | .resetEnd => true
  | .memoryReadEnd block => decide (1 ≤ block.length) && decide (block.length ≤ Config.blockLength)
  | .byteReceived _ _ => true
  | .frameGapTimeout => true
  | .configure _ body => bodyWellFormed body
  | .send _ body => bodyWellFormed body
  | .queryStation _ body => bodyWellFormed body
  | .queryZone _ body => bodyWellFormed body
  | .queryMembers _ body => bodyWellFormed body
  | .queryScene _ body => bodyWellFormed body
  | .subscribe _ body => bodyWellFormed body
  | .restart _ body => bodyWellFormed body
  | .frameTransmitted => true
  | .cellStart o => o.wellFormed
  | .frameTimerExpiry m => m.wellFormed
  | .frameMark m => m.wellFormed
  | .localFrameMark m => m.wellFormed
  | .fadeEnd _ => true
  | .holdExpiry _ => true
  | .aged _ => true
  | .failsafe => true
  | .stale i => decide (i < Config.maxEntries)
  | .longPress _ => true
  | .repeatDue _ => true
  | .countField cells _ => decide (cells.length ≤ 8)
  | .presenceCell _ _ => true
  | .claimField cells _ => decide (cells.length ≤ 8)
  | .message cells _ _ => decide (cells.length ≤ 69)
  | .vetoCell _ _ _ => true
  | .stuckPull o _ => o.wellFormed
  | .founding m => m.wellFormed
  | .lineClear => true
  | .outputPeriodStart _ _ => true
  | .pulseEdge _ _ => true

end Sys2Proof
end

