-- ==== Sys2Proof/Certificates/Slice0/Obligations.lean ====
section
/-! DEFINITION. The statements for the provers. Each says of every state and every operand that meets its hypotheses what
a command does; an explicit next state is its frame as well. -/

section

open Sys2Proof Sys2Proof.Machine

/-! ### Steps, resets and configuration -/

/-- A step takes the command at the front of the queue and executes it on the state with the queue's rest. -/
def Obligations.StepRunsFrontCommand : Prop :=
  ∀ (c : Instr) (rest : List Instr) (s : State), s.pending = c :: rest → step s = exec c (s.setPending rest)

/-- Every command has a next state, and none touches the queue of waiting commands. Both are the model's own choices: a
command given where its happening cannot arise is answered by the state as it stands (log entry 2), and the queue is the
model's (log entry 8). -/
def Obligations.CommandsCompleteAndKeepTheQueue : Prop :=
  ∀ (c : Instr) (s : State), ∃ t, exec c s = .next t ∧ t.pending = s.pending

/-- The reset state meets every invariant of Safety.lean (R28, R30, R59, R127, R198). -/
def Obligations.ResetIsSound : Prop :=
  DriveOk State.reset ∧ CountsOk State.reset ∧ MembersOk State.reset ∧ FlightOk State.reset ∧ ZonesOk State.reset ∧
    MessagesOk State.reset ∧ PortOk State.reset.cp ∧ LoadOk State.reset

/-- COLD_RESET, from any state, puts the station in RESET with every block at its cold values and abandons all work in
progress (R30). -/
def Obligations.ColdResetFromAnyState : Prop :=
  ∀ s : State, exec .coldReset s = .next (State.reset.setPending s.pending)

/-- MEMORY_READ_END with the bytes that bring the buffer to a valid block of 39 publishes it and enters LISTENING with
cause LOADED: the buffer emptied, every block at its publication values, the score and the counts of results kept, the
member table holding the own record ABSENT with the tracked zones (R28, R31, R51, R127, R146, R158, R177, R198, R203).
That the command may bring the last bytes alone, with bytes past the 39th not read, is log entry 19; that the outputs
count the cell in progress as cell 0 is log entry 30. -/
def Obligations.ValidReadIsPublished : Prop :=
  ∀ (bytes : List Byte) (s : State), s.station = .loading → s.cl.load = .reading → s.cl.buffer.length ≤ 39 →
    39 ≤ (s.cl.buffer ++ bytes).length →
    let block := (s.cl.buffer ++ bytes).take 39
    faultIndex block = none →
    ∃ t, exec (.memoryReadEnd bytes) s = .next t ∧ t.station = .listening ∧
      t.cl = ⟨.held, [], some (readBlock block)⟩ ∧
      t.lc = { Lc.cold with running := (readBlock block).ownWidth } ∧
      t.ze = .cold ∧ t.ss = .cold ∧ t.rg = .cold ∧ t.ku = .cold ∧ t.ou = .published (readBlock block) ∧
      t.cq = { s.cq with entries := [] } ∧ t.msu = { s.msu with frame := .cleared .noFrame, slot := none } ∧
      t.mu.score = s.mu.score ∧
      t.mu.members = s.mu.members.set (readBlock block).number ⟨false, 0, (readBlock block).trackedSet⟩ ∧
      t.mu.lastCount = none ∧ t.mu.pairHeld = false ∧ t.mu.ownFree = false ∧ t.mu.faultBefore = false ∧
      t.cp = s.cp.offer (.state .listening .loaded)

/-- RESET_END takes RESET to LOADING, begins the memory read and offers STATE with cause COLD START. The bytes of
MEMORY_READ_END are stored in the buffer behind those before them; while it holds fewer than 39 the station stays in
LOADING and the read goes on (that the command may bring some of the bytes is the model's choice, log entry 19). When
they make it an invalid block, the block is discarded and the station enters UNCONFIGURED with cause NO CONFIGURATION;
all else stays. While the read runs, MSEL is low, MCLK clocks, and MDOUT carries what is left of 336 bits: the read
command 3 and the two bytes of the address 0, then low; in every other load state MSEL is high and the others are low
(R30, R31, R198 to R200, R203). That the pins show whole bytes of the read is log entry 22. -/
def Obligations.StartUpWithoutABlock : Prop :=
  (∀ s : State, MembersOk s → s.station = .reset →
    exec .resetEnd s = .next
      (((s.setCl { s.cl with load := .reading }).setMu
        { s.mu with station := .loading, memberFrame := false, activeFrame := false }).setCp
        (s.cp.offer (.state .loading .coldStart)))) ∧
  (∀ (bytes : List Byte) (s : State), s.station = .loading → s.cl.load = .reading →
    (s.cl.buffer ++ bytes).length < 39 →
    exec (.memoryReadEnd bytes) s = .next (s.setCl { s.cl with buffer := s.cl.buffer ++ bytes })) ∧
  (∀ (bytes : List Byte) (i : Nat) (s : State), MembersOk s → s.station = .loading → s.cl.load = .reading →
    s.cl.buffer.length ≤ 39 → 39 ≤ (s.cl.buffer ++ bytes).length →
    faultIndex ((s.cl.buffer ++ bytes).take 39) = some i →
    exec (.memoryReadEnd bytes) s = .next
      (((s.setCl ⟨.empty, [], none⟩).setMu
        { s.mu with station := .unconfigured, memberFrame := false, activeFrame := false }).setCp
        (s.cp.offer (.state .unconfigured .noConfiguration)))) ∧
  (∀ cl : Cl, (cl.load ≠ .reading → cl.pins = (.high, .low, .low)) ∧
    (cl.load = .reading →
      let bits := List.replicate 6 false ++ [true, true] ++ List.replicate 328 false
      (cl.buffer = [] → cl.pins = (.low, .clocking, .carries bits)) ∧
      (cl.buffer ≠ [] → cl.pins = (.low, .clocking, .carries (bits.drop (24 + 8 * cl.buffer.length))))))

/-- The field at the positions `a` to `b` of a run, counted from 1, carries the number `n`, most significant bit first
(R210). -/
def carriesField (run : List Bool) (a b n : Nat) : Prop :=
  ∀ j : Nat, a ≤ j → j ≤ b → run[j - 1]? = some (n.testBit (b - j))

/-- The fault index is the lowest-numbered byte at fault: a wrong identifier gives 0 whatever else is wrong, a block
wrong in its check alone gives 38, and a block with no byte at fault is valid. Each byte's test is the one its field's
range gives: the identifier A6h, station number to 31, width code 1 to 8, frame length from 96, restatement interval 4
to 64, staleness limit from 16, long-press threshold from 8, failsafe delay from 1, spare bits 0, an unassigned output
with zone 0, an OFF key record all 0, and another's function to 4, priority to 5, parameter by its function and repeat
interval from 1. The configuration read from a valid block has each field from its own bits: the station's fields of
bytes 1 to 9, each output's zone or none, polarity, divider 1, 2, 4 or 8 and phase quarter, and each key's function,
active level, target, priority, fade code, parameter and repeat interval. The own cell width is the width code times 25
µs, and the tracked zones are those that an output names. The check code takes the bytes' bits, most significant first,
into a register of ones: at each bit every place moves one leftward, the rightmost taking 0, and the three rightmost are
inverted when the leftmost place had differed from the bit (R3, R58, R103, R201, R202, R205, R207 to R209, R211). -/
def Obligations.FaultIndexIsTheLowestByteAtFault : Prop :=
  (∀ (b : List Byte) (i : Nat), faultIndex b = some i ↔
    i < 39 ∧ byteFault b i = true ∧ ∀ j < i, byteFault b j = false) ∧
  (∀ b : List Byte, b.length = 39 → b.getD 0 0#8 ≠ 0xA6#8 → faultIndex b = some 0) ∧
  (∀ b : List Byte, b.length = 39 → (∀ j < 38, byteFault b j = false) →
    b.getD 38 0#8 ≠ checkCode (bitsOfBytes (b.take 38)) → faultIndex b = some 38) ∧
  (∀ b : List Byte, faultIndex b = none ↔ ∀ j < 39, byteFault b j = false) ∧
  (∀ b : List Byte, b.length = 39 →
    let v := fun i => (b.getD i 0#8).toNat
    let ok := fun i => byteFault b i = false
    (ok 0 ↔ v 0 = 0xA6) ∧ (ok 1 ↔ v 1 ≤ 31) ∧ (ok 2 ↔ 1 ≤ v 2 ∧ v 2 ≤ 8) ∧ (ok 3 ↔ 96 ≤ v 3) ∧
    (ok 4 ↔ 4 ≤ v 4 ∧ v 4 ≤ 64) ∧ (ok 5 ↔ 16 ≤ v 5) ∧ (ok 6 ↔ 8 ≤ v 6) ∧ (ok 7 ↔ 1 ≤ v 7) ∧ (ok 8 ↔ v 8 < 64) ∧
    ok 9 ∧ (ok 38 ↔ b.getD 38 0#8 = checkCode (bitsOfBytes (b.take 38))) ∧
    (∀ k : Fin 4, let r := 10 + 2 * k.val
      (ok r ↔ v r / 16 % 8 = 0 ∧ (v r < 128 → v r % 16 = 0)) ∧ (ok (r + 1) ↔ v (r + 1) % 8 = 0)) ∧
    (∀ k : Fin 4, let r := 18 + 5 * k.val
      let func := v r / 32
      let param := 256 * (v (r + 2) % 64) + v (r + 3)
      (func = 0 → (ok r ↔ v r = 0) ∧ ∀ j, 1 ≤ j → j ≤ 4 → (ok (r + j) ↔ v (r + j) = 0)) ∧
      (func ≠ 0 → (ok r ↔ func ≤ 4) ∧ (ok (r + 1) ↔ v (r + 1) / 32 ≤ 5 ∧ v (r + 1) / 16 % 2 = 0) ∧
        (ok (r + 2) ↔ v (r + 2) < 64 ∧ (func = 1 → 1 ≤ param ∧ param ≤ 511) ∧ (func = 2 → param = 0) ∧
          (func = 4 → param ≤ 1023)) ∧
        ok (r + 3) ∧ (ok (r + 4) ↔ 1 ≤ v (r + 4))))) ∧
  (∀ b : List Byte, b.length = 39 → faultIndex b = none →
    let v := fun i => (b.getD i 0#8).toNat
    let c := readBlock b
    c.number.val = v 1 ∧ c.widthCode = v 2 ∧ c.ownWidth = 25000 * v 2 ∧ c.frameLength = v 3 ∧
    c.restatement = v 4 ∧ c.staleness = v 5 ∧ c.longPress = v 6 ∧ c.failDelay = v 7 ∧
    c.failFade.val = v 8 / 4 ∧ c.failLevel = 256 * (v 8 % 4) + v 9 ∧
    (∀ k : Fin 4, let r := 10 + 2 * k.val
      let o := c.outputs[k]
      (v r < 128 → o.zone = none) ∧ (∀ z : Fin 16, v r = 128 + z.val → o.zone = some z) ∧
      (o.activeLow = true ↔ 128 ≤ v (r + 1)) ∧
      [1, 2, 4, 8][v (r + 1) / 32 % 4]? = some o.divider ∧ o.phase.val = v (r + 1) / 8 % 4) ∧
    (∀ k : Fin 4, let r := 18 + 5 * k.val
      let h := c.keys[k]
      [KeyFunction.off, .toggleDim, .scene, .occupy, .level][v r / 32]? = some h.func ∧
      (h.activeLow = true ↔ v r / 16 % 2 = 1) ∧ h.target.val = v r % 16 ∧ h.prio = v (r + 1) / 32 ∧
      h.fade.val = v (r + 1) % 16 ∧ h.param = 256 * v (r + 2) + v (r + 3) ∧ h.interval = v (r + 4)) ∧
    (∀ z : Fin 16, (c.tracks z = true ↔ ∃ k : Fin 4, c.outputs[k].zone = some z) ∧
      c.trackedSet.getLsbD z.val = c.tracks z)) ∧
  (∀ (l : List Bool) (bit : Bool), checkCode [] = 0xFF#8 ∧ checkCode (l ++ [bit]) = checkStep (checkCode l) bit) ∧
  (∀ (register : Byte) (bit : Bool),
    (∀ k : Nat, 1 ≤ k → k < 8 → (checkStep register bit).getLsbD k =
      (register.getLsbD (k - 1) ^^ (decide (k < 3) && (register.getLsbD 7 ^^ bit)))) ∧
    (checkStep register bit).getLsbD 0 = (register.getLsbD 7 ^^ bit)) ∧
  (∀ (b : Byte) (l : List Byte), (bitsOfByte b).length = 8 ∧ carriesField (bitsOfByte b) 1 8 b.toNat ∧
    bitsOfBytes [] = [] ∧ bitsOfBytes (b :: l) = bitsOfByte b ++ bitsOfBytes l)

/-- CONFIGURE in UNCONFIGURED with a valid block: ACCEPT first, then publication and the entry to LISTENING with cause
CONFIGURED, the join bookkeeping and the drive-fault history cleared (R32, R184, R204, R205). That the outputs count the
cell in progress at publication as cell 0 is the model's choice (log entry 30). -/
def Obligations.ConfigurePublishesAfterItsAccept : Prop :=
  ∀ (tag : Byte) (body : List Byte) (s : State), s.station = .unconfigured → s.cp.slot = none → body.length = 39 →
    faultIndex body = none →
    ∃ t, exec (.configure tag body) s = .next t ∧ t.station = .listening ∧
      t.cl = ⟨.held, [], some (readBlock body)⟩ ∧
      t.lc = { Lc.cold with running := (readBlock body).ownWidth } ∧
      t.ze = .cold ∧ t.ss = .cold ∧ t.rg = .cold ∧ t.ku = .cold ∧ t.ou = .published (readBlock body) ∧
      t.cq = { s.cq with entries := [] } ∧ t.msu = { s.msu with frame := .cleared .noFrame, slot := none } ∧
      t.mu.score = s.mu.score ∧
      t.mu.members = s.mu.members.set (readBlock body).number ⟨false, 0, (readBlock body).trackedSet⟩ ∧
      t.mu.lastCount = none ∧ t.mu.pairHeld = false ∧ t.mu.ownFree = false ∧ t.mu.faultBefore = false ∧
      t.cp = (s.cp.accept tag []).offer (.state .listening .configured)

/-! ### Bytes and requests -/

/-- The frame of a request, byte by byte on CRXD from HUNT, is taken as the request of its type byte with its tag and
body, and leaves the assembler in HUNT: the eight type codes name the eight requests, and any other type is refused as
UNKNOWN TYPE at an empty slot and sets the overrun indication at a full one (R179, R181, R182, R212). That the byte
which ends the frame carries out the request, by the request row's operation, is read from the table's rows (log entry
20). -/
def Obligations.ReceivedFrameIsItsRequest : Prop :=
  ∀ (type tag : Byte) (body : List Byte) (s : State), s.station ≠ .reset → s.cp.assembler.phase = .hunt →
    body.length ≤ 48 →
    let h := s.setCp { s.cp with assembler := .hunting }
    let sent := execAll ((frameBytes type tag body).map fun b => .byteReceived b true) s
    (type = 1 → sent = exec (.configure tag body) h) ∧ (type = 2 → sent = exec (.send tag body) h) ∧
    (type = 3 → sent = exec (.queryStation tag body) h) ∧ (type = 4 → sent = exec (.queryZone tag body) h) ∧
    (type = 5 → sent = exec (.queryMembers tag body) h) ∧ (type = 6 → sent = exec (.queryScene tag body) h) ∧
    (type = 7 → sent = exec (.subscribe tag body) h) ∧ (type = 8 → sent = exec (.restart tag body) h) ∧
    ((type = 0 ∨ 8 < type.toNat) →
      (s.cp.slot = none → sent = .next (h.setCp (h.cp.refuse tag .unknownType))) ∧
      (s.cp.slot ≠ none → sent = .next (h.setCp { h.cp with overrun := true })))

/-- A bad length, a framing error in LENGTH or COLLECT, and a bad check return the assembler to HUNT; LINK ERROR, with
tag 0 and no body, is answered at an empty slot, and at a full one the overrun indication is set instead (R179, R181,
R182). A gap of more than 10 ms in LENGTH or COLLECT returns it to HUNT without a reply, and in HUNT it changes
nothing (R180). -/
def Obligations.BadFramesAreDropped : Prop :=
  (∀ (b : Byte) (stop : Bool) (s : State), s.station ≠ .reset →
    (s.cp.assembler.phase = .length ∧ (stop = false ∨ b.toNat < 2 ∨ 50 < b.toNat) ∨
      s.cp.assembler.phase = .collect ∧ (stop = false ∨
        s.cp.assembler.need ≤ s.cp.assembler.stored.length ∧ s.cp.assembler.sum + b ≠ 0#8)) →
    (s.cp.slot = none → exec (.byteReceived b stop) s =
      .next (s.setCp (Cp.reply { s.cp with assembler := .hunting } 0x83 0 []))) ∧
    (s.cp.slot ≠ none → exec (.byteReceived b stop) s =
      .next (s.setCp { s.cp with assembler := .hunting, overrun := true }))) ∧
  (∀ s : State, s.cp.assembler.phase ≠ .hunt →
    exec .frameGapTimeout s = .next (s.setCp { s.cp with assembler := .hunting })) ∧
  (∀ s : State, s.cp.assembler.phase = .hunt → exec .frameGapTimeout s = .next s)

/-- The eight requests as commands, with their types. -/
def requestCommands (tag : Byte) (body : List Byte) : List (RequestType × Instr) :=
  [(.configure, .configure tag body), (.send, .send tag body), (.queryStation, .queryStation tag body),
    (.queryZone, .queryZone tag body), (.queryMembers, .queryMembers tag body), (.queryScene, .queryScene tag body),
    (.subscribe, .subscribe tag body), (.restart, .restart tag body)]

/-- Every request that completes while the slot holds a reply is not processed: the overrun indication is set and
nothing else changes (R182, R192). -/
def Obligations.FullSlotTurnsRequestsAway : Prop :=
  ∀ (tag : Byte) (body : List Byte) (s : State), s.station ≠ .reset → s.cp.slot ≠ none →
    ∀ p ∈ requestCommands tag body, exec p.2 s = .next (s.setCp { s.cp with overrun := true })

/-- The length R182 requires of a request's body. A SEND has 2 bytes and those of its kind, 3 bytes in all for a
CAPTURE, and any length from 2 where its kind is none of the seven. -/
def rightLength (t : RequestType) (body : List Byte) : Prop :=
  match t with
  | .configure => body.length = 39
  | .queryStation | .restart => body.length = 0
  | .queryZone | .queryMembers | .queryScene | .subscribe => body.length = 1
  | .send => ∃ p k rest, body = p :: k :: rest ∧
      (6 < k.toNat ∨ [5, 4, 3, 3, 3, 3, 5][k.toNat]? = some body.length)

/-- The tests of a request, in order: a body of the wrong length is refused with BAD LENGTH in every state, the lengths
being 39 for CONFIGURE, 0 for QUERY STATION and RESTART, 1 for the other queries and SUBSCRIBE, and for SEND 5 for LEVEL
and OCCUPY, 4 for STEP and 3 for TOGGLE, HALT, RECALL and CAPTURE; then the
station state refuses with LOADING, NOT CONFIGURED or ALREADY CONFIGURED as R183 lists; then a field at fault is refused
with BAD FIELD and its index. A refusal changes nothing but CP (R182, R183). -/
def Obligations.RequestsAreTestedInOrder : Prop :=
  ∀ (tag : Byte) (body : List Byte) (s : State), s.station ≠ .reset → s.cp.slot = none →
    ∀ p ∈ requestCommands tag body,
      (¬rightLength p.1 body → exec p.2 s = .next (s.setCp (s.cp.refuse tag .badLength))) ∧
      (rightLength p.1 body →
        (s.station = .loading → p.1 ≠ .queryStation → p.1 ≠ .subscribe →
          exec p.2 s = .next (s.setCp (s.cp.refuse tag .loading))) ∧
        (s.station = .unconfigured → p.1 ≠ .configure → p.1 ≠ .queryStation → p.1 ≠ .subscribe →
          exec p.2 s = .next (s.setCp (s.cp.refuse tag .notConfigured))) ∧
        (s.station.running = true → p.1 = .configure →
          exec p.2 s = .next (s.setCp (s.cp.refuse tag .alreadyConfigured))) ∧
        (∀ i, p.1.fieldFault body = some i →
          (p.1 = .queryStation ∨ p.1 = .subscribe ∨ p.1 = .configure ∧ s.station = .unconfigured ∨
            p.1 ≠ .configure ∧ s.station.running = true) →
          exec p.2 s = .next (s.setCp (s.cp.refuse tag (.badField i)))))

/-- SEND in a running station offers its request to the claim queue: taken, the ACCEPT with the entry count comes before
the OUTCOME reports; turned away, the queue stays as it was and the reply is OUTBOX FULL (R82, R87, R97, R185). -/
def Obligations.SendIsOfferedToTheQueue : Prop :=
  ∀ (tag : Byte) (body : List Byte) (req : Request) (s : State), s.station.running = true → s.cp.slot = none →
    sendLengthOk body = true → sendFault body = none → sendRequest body = some req →
    let k := s.cq.take (.companion tag) (body.getD 0 0#8).toNat req
    (k.taken = true → exec (.send tag body) s = .next ((s.setCq k.cq).setCp
      ((s.cp.accept tag [BitVec.ofNat 8 k.cq.entries.length]).offerAll k.reports))) ∧
    (k.taken = false → exec (.send tag body) s = .next (s.setCp (s.cp.refuse tag .outboxFull)))

/-- The body of a SEND carries its request: for every request in range and priority 0 to 5, the body laid out by R210
and R212 passes the tests and is read as that request. Every other body of a right length is refused with BAD FIELD and
the lowest index at fault: a priority above 5 at 0, a kind above 6 at 1, a STEP of 0 or −512 at 2, and a spare bit at
the byte that holds it (R182, R185, R212). That a priority above 5 gives 0 also where the kind is above 6 is read from
R182's lowest index (log entry 14). -/
def Obligations.SendBodyCarriesItsRequest : Prop :=
  (∀ (prio : Nat) (r : Request), prio ≤ 5 → r.InRange →
    sendLengthOk (r.sendBody prio) = true ∧ sendFault (r.sendBody prio) = none ∧
      sendRequest (r.sendBody prio) = some r ∧ ((r.sendBody prio).getD 0 0#8).toNat = prio) ∧
  (∀ (tag p k a b c : Byte) (body : List Byte) (s : State), s.station.running = true → s.cp.slot = none →
    let refused := fun (body : List Byte) (i : Nat) =>
      exec (.send tag body) s = .next (s.setCp (s.cp.refuse tag (.badField i)))
    let step := 64 * (a.toNat % 16) + b.toNat / 4
    (5 < p.toNat → sendLengthOk (p :: k :: body) = true → refused (p :: k :: body) 0) ∧
    (p.toNat ≤ 5 →
      (6 < k.toNat → refused (p :: k :: body) 1) ∧
      ((step = 0 ∨ step = 512) → refused [p, 1, a, b] 2) ∧
      (step ≠ 0 → step ≠ 512 → b.toNat % 4 ≠ 0 → refused [p, 1, a, b] 3) ∧
      (c.toNat % 64 ≠ 0 → refused [p, 0, a, b, c] 4) ∧
      (a.toNat % 16 ≠ 0 → refused [p, 3, a] 2 ∧ refused [p, 5, a] 2) ∧
      (c.toNat % 4 ≠ 0 → refused [p, 6, a, b, c] 4)))

/-- QUERY STATION, in every state after RESET, answers 33 bytes and changes CP alone; the body gives the station state,
number, framed and last-own flags, frame count, score, slip count, the three results' counts, the entry count, the
settle gap, the last own settle and the subscription set (R186, R212). -/
def Obligations.QueryStationReportsTheStation : Prop :=
  ∀ (tag : Byte) (s : State), s.station ≠ .reset → s.cp.slot = none →
    ∃ body : List Byte, exec (.queryStation tag []) s = .next (s.setCp (s.cp.accept tag body)) ∧ body.length = 33 ∧
      body.take 6 = [s.station.code, BitVec.ofNat 8 s.number.val,
        BitVec.ofNat 8 (s.lc.framed.toNat + 2 * s.rg.lastOwn.isSome.toNat), s.lc.count, BitVec.ofNat 8 s.mu.score,
        BitVec.ofNat 8 s.lc.slips] ∧
      (body.drop 6).take 7 = wordBytes s.msu.settledCount ++ wordBytes s.msu.voidCount ++
        wordBytes s.msu.discardCount ++ [BitVec.ofNat 8 s.cq.entries.length] ∧
      (∀ k : Fin 4, (body.drop (13 + 4 * k.val)).take 4 = [BitVec.ofNat 8 s.cq.counts[k].sent,
        BitVec.ofNat 8 s.cq.counts[k].failed, BitVec.ofNat 8 s.cq.counts[k].stale,
        BitVec.ofNat 8 s.cq.counts[k].dropped]) ∧
      (∀ k : Fin 4, (body.getD 29 0#8).getLsbD k.val = s.ku.channels[k].pressed ∧
        (body.getD 29 0#8).getLsbD (4 + k.val) = s.ku.channels[k].down) ∧
      body.drop 30 = [BitVec.ofNat 8 s.rg.gap, s.rg.lastOwn.getD 0, BitVec.setWidth 8 s.cp.subs]

/-- QUERY ZONE, QUERY MEMBERS and QUERY SCENE in a running station answer from the tables as they stand and change CP
alone. A zone gives 16 bytes: the zone alone and 0s for a record that is not live; for a live one the zone with its four
flags, target, current, fade remainder and last-on, the hold or 0s, the age, and the assigned channels. Half the member
table gives 37 bytes: the half, then presence, misses and zone set of each record. A scene gives its number and
generation, then for each tracked zone in ascending order the zone with the correction and level flags, the level and
the generation. A zone or scene above 15 and a half above 1 are refused with BAD FIELD and index 0 (R187 to R189, R212).
That the expiry fade code too is sent as 0 where there is no hold is the model's choice (log entry 38). -/
def Obligations.QueriesReadTheTables : Prop :=
  ∀ (tag : Byte) (s : State), s.station.running = true → s.cp.slot = none →
    (∀ z : Fin 16, ∃ body : List Byte,
      exec (.queryZone tag [BitVec.ofNat 8 z.val]) s = .next (s.setCp (s.cp.accept tag body)) ∧ body.length = 16 ∧
      (s.conf.tracks z = false → body = BitVec.ofNat 8 z.val :: List.replicate 15 0#8) ∧
      (s.conf.tracks z = true →
        body.getD 0 0#8 = BitVec.ofNat 8 (z.val + 16 * (s.reporter z).toNat + 32 * s.ze.zones[z].heard.toNat +
          64 * s.ze.zones[z].unverified.toNat + 128) ∧
        (body.drop 1).take 8 = wordBytes s.ze.zones[z].target ++ wordBytes s.ze.zones[z].current ++
          wordBytes s.ze.zones[z].fade ++ wordBytes s.ze.zones[z].lastOn ∧
        (s.ze.zones[z].hold = none → (body.drop 9).take 5 = List.replicate 5 0#8) ∧
        (∀ h, s.ze.zones[z].hold = some h → (body.drop 9).take 5 =
          BitVec.ofNat 8 (128 + h.fade.val) :: wordBytes h.remainder ++ wordBytes h.vacant) ∧
        body.getD 14 0#8 = BitVec.ofNat 8 s.ze.zones[z].age ∧ (body.getD 15 0#8).toNat < 16 ∧
        ∀ ch : Fin 4, (body.getD 15 0#8).getLsbD ch.val = (s.conf.outputs[ch].zone == some z))) ∧
    (∀ half : Fin 2, ∃ body : List Byte,
      exec (.queryMembers tag [BitVec.ofNat 8 half.val]) s = .next (s.setCp (s.cp.accept tag body)) ∧
      body.length = 37 ∧ body.getD 0 0#8 = BitVec.ofNat 8 half.val ∧
      ∀ (j : Fin 16) (n : Fin 32), n.val = 16 * half.val + j.val →
        (body.getD (2 - j.val / 8) 0#8).getLsbD (j.val % 8) = s.mu.members[n].present ∧
        (body.getD (4 - j.val / 8) 0#8).getLsbD (j.val % 8) = (s.mu.members[n].misses == 1) ∧
        (body.drop (5 + 2 * j.val)).take 2 = wordBytes s.mu.members[n].zones.toNat) ∧
    (∀ sc : Fin 16, ∃ body : List Byte,
      exec (.queryScene tag [BitVec.ofNat 8 sc.val]) s = .next (s.setCp (s.cp.accept tag body)) ∧
      body.take 2 = [BitVec.ofNat 8 sc.val, s.ss.gens[sc]] ∧
      let tracked := (List.finRange 16).filter s.conf.tracks
      body.length = 2 + 4 * tracked.length ∧
      ∀ (j : Nat) (z : Fin 16), tracked[j]? = some z →
        let e := s.ss.entry sc z
        (body.drop (2 + 4 * j)).take 4 =
          BitVec.ofNat 8 (z.val + 64 * e.correction.toNat + 128 * e.level.isSome.toNat) ::
            wordBytes (e.level.getD 0) ++ [e.gen]) ∧
    (∀ b : Byte,
      (15 < b.toNat → exec (.queryZone tag [b]) s = .next (s.setCp (s.cp.refuse tag (.badField 0))) ∧
        exec (.queryScene tag [b]) s = .next (s.setCp (s.cp.refuse tag (.badField 0)))) ∧
      (1 < b.toNat → exec (.queryMembers tag [b]) s = .next (s.setCp (s.cp.refuse tag (.badField 0)))))

/-- SUBSCRIBE replaces the subscription set by the five class bits of its body, and its ACCEPT gives the new set; a bit
outside them is refused with BAD FIELD and index 0 (R190, R212). -/
def Obligations.SubscribeReplacesTheSet : Prop :=
  ∀ (tag b : Byte) (s : State), s.station ≠ .reset → s.cp.slot = none →
    (b.toNat < 32 → exec (.subscribe tag [b]) s =
      .next (s.setCp (Cp.accept { s.cp with subs := BitVec.setWidth 5 b } tag [b]))) ∧
    (32 ≤ b.toNat → exec (.subscribe tag [b]) s = .next (s.setCp (s.cp.refuse tag (.badField 0))))

/-- RESTART in a running station is accepted with an empty body and sets the restart-pending indication; the station
goes on as before until the ACCEPT has been transmitted (R191). -/
def Obligations.RestartIsPendingUntilItsAcceptIsSent : Prop :=
  ∀ (tag : Byte) (s : State), s.station.running = true → s.cp.slot = none →
    exec (.restart tag []) s = .next (s.setCp { s.cp.accept tag [] with restart := true })

/-- What CP does with a report that it decides to queue: at 16 reports it is discarded and the lost count rises by 1 up
to 255; otherwise it goes to the tail with the present lost count, which becomes 0, and the present sequence number,
which rises by 1 (R194). -/
def queuedReport (cp : Cp) (r : Report) : Cp :=
  if cp.queue.length < 16 then
    { cp with queue := cp.queue ++ [⟨r, cp.lost, cp.seq⟩], lost := 0, seq := cp.seq + 1 }
  else { cp with lost := min 255 (cp.lost + 1) }

/-- The bit of the subscription set that lets a report be queued: bit 0 for COMMIT, 1 MEMBER, 2 STATE, 3 ZONE and 4
LINE; an OUTCOME needs none (R190, R193, R212). -/
def subscribed (cp : Cp) : Report → Bool
  | .outcome _ _ => true
  | .commit _ _ _ _ => cp.subs.getLsbD 0
  | .member _ _ => cp.subs.getLsbD 1
  | .state _ _ => cp.subs.getLsbD 2
  | .zone _ _ _ _ => cp.subs.getLsbD 3
  | .line _ _ => cp.subs.getLsbD 4

/-- The type code of a report's frame, and the bytes of its body after the lost count, with the codes of R213 (R212). -/
def reportLayout : Report → Byte × List Byte
  | .commit count claim kind data => (0x90, [count, claim, BitVec.ofNat 8 kind] ++ data)
  | .outcome tag o => (0x91, [tag, match o with
    | .sent => 1 | .failed => 2 | .stale => 3 | .replaced => 4 | .merged => 5 | .cancelled => 6])
  | .state st cause => (0x92, [
    match st with
    | .reset => 0 | .loading => 1 | .unconfigured => 2 | .listening => 3 | .active => 4 | .muted => 5 | .lineFault => 6,
    match cause with
    | .coldStart => 1 | .loaded => 2 | .noConfiguration => 3 | .configured => 4 | .founded => 5 | .joined => 6
    | .scoreHigh => 7 | .scoreLow => 8 | .stuckPull => 9 | .driveFaults => 10 | .lineClear => 11 | .restart => 12])
  | .member n joined => (0x93, [BitVec.ofNat 8 n.val, if joined then 1 else 2])
  | .zone z cause target current => (0x94, [BitVec.ofNat 8 z.val,
    match cause with
    | .statement => 1 | .aged => 2 | .holdEnd => 3 | .fadeEnd => 4,
    BitVec.ofNat 8 (target / 256), BitVec.ofNat 8 target, BitVec.ofNat 8 (current / 256), BitVec.ofNat 8 current])
  | .line event count => (0x95, [
    match event with
    | .countSlip => 1 | .disturbance => 2 | .driveFault => 3 | .duplicateNumber => 4, count])

/-- `frame` is the companion frame of a type, a tag and a body: start byte C5h, the count of type, tag and body, those,
and the check byte with which the bytes from the length on sum to 0 (R212). -/
def isFrame (frame : List Byte) (type tag : Byte) (body : List Byte) : Prop :=
  ∃ check : Byte, frame = [0xC5, BitVec.ofNat 8 (body.length + 2), type, tag] ++ body ++ [check] ∧
    (frame.drop 1).foldl (· + ·) 0 = 0

/-- At the end of a transmitted frame that orders no restart, the transmitter takes the reply in the slot if it has not
been sent, otherwise the head of the report queue, otherwise it is IDLE; the end of a reply empties the slot. An offered
report is queued when it is an OUTCOME or its class is subscribed, and dropped otherwise: at the tail with the lost
count, then 0, and the sequence number, then 1 more; at 16 reports it is discarded, takes no number and adds 1 to the
lost count, up to 255. Reports of one moment are offered one by one, each list of them in its own order. A reply fills
the slot and clears the overrun indication, which it carries in bit 6 of its type: ACCEPT 81h, REFUSE 82h with its
reason code and fault index. An IDLE transmitter, which has nothing waiting, begins either at once. A report's frame has
the type of its class, the sequence number as tag, and the lost count before its fields; a reply's has the request's
tag. CTXD carries each byte of the frame under way as a low start bit, the data least significant bit first and a high
stop bit, one after another, and idles while no frame is under way (R178, R182, R192 to R195, R212, R213). That an IDLE
transmitter chooses after each single one of several reports of one moment is read from R195 (log entry 17). -/
def Obligations.TransmitterChoosesAtTheEndOfAFrame : Prop :=
  (∀ (f : Sending) (s : State), s.cp.sending = some f → (f.isReply = false ∨ s.cp.restart = false) →
    (∀ r, f.isReply = false → s.cp.slot = some r →
      exec .frameTransmitted s = .next (s.setCp { s.cp with sending := some ⟨true, r.frame⟩ })) ∧
    ((f.isReply = true ∨ s.cp.slot = none) →
      (∀ q rest, s.cp.queue = q :: rest → exec .frameTransmitted s =
        .next (s.setCp { s.cp with slot := none, queue := rest, sending := some ⟨false, q.frame⟩ })) ∧
      (s.cp.queue = [] →
        exec .frameTransmitted s = .next (s.setCp { s.cp with slot := none, sending := none })))) ∧
  (∀ (r : Report) (cp : Cp),
    (subscribed cp r = false → cp.offer r = cp) ∧
    (subscribed cp r = true → cp.sending ≠ none → cp.offer r = queuedReport cp r) ∧
    (subscribed cp r = true → cp.sending = none → cp.queue = [] → cp.slot = none →
      ∃ frame, cp.offer r = { cp with lost := 0, seq := cp.seq + 1, sending := some ⟨false, frame⟩ } ∧
        isFrame frame (reportLayout r).1 cp.seq (BitVec.ofNat 8 cp.lost :: (reportLayout r).2))) ∧
  (∀ cp : Cp, cp.offerAll [] = cp ∧ ∀ (r : Report) (l : List Report), cp.offerAll (r :: l) = (cp.offer r).offerAll l) ∧
  (∀ (order : OfferOrder) (blocks : List (List Report)),
    (interleave order blocks).Perm blocks.flatten ∧ ∀ l ∈ blocks, l.Sublist (interleave order blocks)) ∧
  (∀ (cp : Cp) (tag : Byte) (body : List Byte),
    let made := fun (cp' : Cp) (type : Byte) (body : List Byte) =>
      let t := if cp.overrun then type + 0x40 else type
      (cp.sending ≠ none → cp' = { cp with slot := some ⟨t, tag, body⟩, overrun := false }) ∧
      (cp.sending = none → ∃ frame, isFrame frame t tag body ∧
        cp' = { cp with slot := some ⟨t, tag, body⟩, overrun := false, sending := some ⟨true, frame⟩ })
    made (cp.accept tag body) 0x81 body ∧ made (cp.reply 0x83 tag body) 0x83 body ∧
    made (cp.refuse tag .unknownType) 0x82 [1, 0] ∧ made (cp.refuse tag .badLength) 0x82 [2, 0] ∧
    (∀ i : Nat, made (cp.refuse tag (.badField i)) 0x82 [3, BitVec.ofNat 8 i]) ∧
    made (cp.refuse tag .notConfigured) 0x82 [4, 0] ∧ made (cp.refuse tag .alreadyConfigured) 0x82 [5, 0] ∧
    made (cp.refuse tag .loading) 0x82 [6, 0] ∧ made (cp.refuse tag .outboxFull) 0x82 [7, 0]) ∧
  (∀ q : Queued, isFrame q.frame (reportLayout q.report).1 q.seq (BitVec.ofNat 8 q.lost :: (reportLayout q.report).2)) ∧
  (∀ r : Reply, isFrame r.frame r.type r.tag r.body) ∧
  [StationState.reset, .loading, .unconfigured, .listening, .active, .muted, .lineFault].map StationState.code =
    [0, 1, 2, 3, 4, 5, 6] ∧
  (∀ n : Nat, wordBytes n = [BitVec.ofNat 8 (n / 256), BitVec.ofNat 8 n]) ∧
  (∀ s : State, (s.cp.sending = none → s.ctxd = none) ∧
    ∀ f : Sending, s.cp.sending = some f → s.ctxd = some (f.bytes.flatMap serialBits)) ∧
  (∀ b : Byte, serialBits b = [false, b.getLsbD 0, b.getLsbD 1, b.getLsbD 2, b.getLsbD 3, b.getLsbD 4, b.getLsbD 5,
    b.getLsbD 6, b.getLsbD 7, true])

/-- The end of a RESTART's ACCEPT is the warm restart: LISTENING unframed with count 0 and score 0, other records
ABSENT, the claim queue emptied without outcomes, every live zone marked and its values kept, the scene store, outputs
and configuration kept, keys and generator cleared, and CP cleared but for its subscriptions before STATE with cause
RESTART is offered (R28, R55, R76, R101, R127, R138, R177, R196). LC's measures start again within the cell in
progress, which cannot become cell 0 of a mark (log entries 24, 32). -/
def Obligations.WarmRestartKeepsWhatTheStationHasLearned : Prop :=
  ∀ (f : Sending) (s : State), s.cp.sending = some f → f.isReply = true → s.cp.restart = true →
    ∃ t, exec .frameTransmitted s = .next t ∧ t.station = .listening ∧ t.mu.score = 0 ∧
      t.mu.members[s.number] = ⟨false, 0, s.conf.trackedSet⟩ ∧
      (∀ i : Fin 32, i ≠ s.number → t.mu.members[i] = .absent) ∧
      t.mu.lastCount = none ∧ t.mu.pairHeld = false ∧ t.mu.ownFree = false ∧ t.mu.faultBefore = false ∧
      t.lc = { Lc.cold with running := s.conf.ownWidth, slips := s.lc.slips, fresh := true } ∧
      t.cq = { s.cq with entries := [] } ∧ t.msu = { s.msu with frame := .cleared .noFrame, slot := none } ∧
      (∀ z : Fin 16, t.ze.zones[z] = if s.conf.tracks z then
        { s.ze.zones[z] with unverified := true, age := 0, heard := false } else s.ze.zones[z]) ∧
      t.ss = s.ss ∧ t.rg = .cold ∧ t.ou = s.ou ∧ t.ku = .cold ∧ t.cl = s.cl ∧
      t.cp = Cp.offer { Cp.cold with subs := s.cp.subs } (.state .listening .restart)

/-! ### Cells and line faults -/

/-- CELL_START at a framed ticking station with no disturbance. Outside a mark the timer rises and stops at the own
frame length, and the running width becomes the own width when it has elapsed, or at a FREE-to-PULLED transition the
ended cell's duration, from 25 µs to the own width. The cells of a mark, cell 0 of one that the station issues from its
start, keep the running width, and a transition inside them begins no cell. Each cell pulled is the whole of a mark's
cells, otherwise the tick with the value window of a sent 0; a MUTED station pulls no value. Only a framed ACTIVE
station pulls a value window: in cells 3 to 10 the 0 bits of its count while it sends it; in cell 11 of a frame whose
count field it read whole, when the count mod 32 is its number; in cells 12 to 19 the 0 bits of the claim it contends
with, at their start the claim of the queue's head, or with no entry the generator's at priority 6; in cells 20 to 88
the 0 bits of the stream of a message it originates, until a mismatch; in cell 89 of a message, its veto for a fault
found or a veto decided; in no other cell (R2 to R4, R7, R11, R13, R14, R18, R20 to R22, R63, R69, R89, R140, R148).
That only a cell begun by a transition can begin a mark is log entry 26. -/
def Obligations.TickingCellPullsItsTick : Prop :=
  (∀ (k : Nat) (s : State), (s.station ≠ .active ∨ s.lc.framed = false) → s.pulls k = false) ∧
  (∀ (k : Nat) (s : State), s.station = .active → s.lc.framed = true →
    let f := s.msu.frame
    let contends := fun c : Contest => (s.lc.claimOpen = true ∧ s.lc.contest = some c) ∨ (s.lc.claimOpen = false ∧
      ((∃ e es, s.cq.entries = e :: es ∧ c = ⟨claimByte e.prio s.number, .queue⟩) ∨
        (s.cq.entries = [] ∧ s.conf.restatement ≤ s.rg.gap ∧ s.chosenItem ≠ none ∧
          c = ⟨claimByte 6 s.number, .generator⟩)))
    (3 ≤ k → k ≤ 10 → (s.pulls k = true ↔ s.lc.countSending = true ∧ s.lc.count.getLsbD (10 - k) = false)) ∧
    (k = 11 → (s.pulls k = true ↔ s.lc.countRead = true ∧ s.lc.count.toNat % 32 = s.number.val)) ∧
    (12 ≤ k → k ≤ 19 → (s.pulls k = true ↔ ∃ c, contends c ∧ c.claim.getLsbD (19 - k) = false)) ∧
    (20 ≤ k → k ≤ 88 → (s.pulls k = true ↔ f.phase = .message ∧ f.role = .originator ∧ f.mismatch = false ∧
      f.stream[k - 20]? = some false)) ∧
    (k = 89 → (s.pulls k = true ↔ f.phase = .message ∧ (f.faultFound = true ∨ f.veto = true))) ∧
    ((k < 3 ∨ 89 < k) → s.pulls k = false)) ∧
  ∀ (o : CellObs) (s : State), s.station.ticking = true → s.lc.framed = true →
    let inMark := s.lc.timer ≤ 1 ∨ s.lc.timer = s.conf.frameLength
    (inMark ∨ s.quietCell s.lc.timer = false ∨ o.mid = true ∨ o.rest = false ∧ s.lc.markable = true) →
    ∃ t, exec (.cellStart o) s = .next t ∧ t = (s.setLc t.lc).setOu t.ou ∧ t.lc.silence = s.lc.silence ∧
      t.lc.count = s.lc.count ∧ t.lc.contest = s.lc.contest ∧ t.lc.framed = true ∧
      (o.transition = true → inMark → t.lc.timer = s.lc.timer ∧ t.lc.running = s.lc.running ∧
        t.lc.drive = s.lc.drive ∧ t.lc.markable = s.lc.markable ∧ t.ou = s.ou) ∧
      (o.transition = false ∨ ¬inMark →
        t.lc.timer = min (s.lc.timer + 1) s.conf.frameLength ∧ t.lc.markable = o.transition ∧
        t.lc.running = (if inMark then s.lc.running
          else if o.transition then max 25000 (min s.conf.ownWidth o.width) else s.conf.ownWidth) ∧
        t.ou = { s.ou with cells := s.ou.cells + 1, position := cellPosition (s.ou.cells + 1) } ∧
        ((t.lc.timer = 1 ∨ t.lc.timer = s.conf.frameLength) → t.lc.drive = .whole) ∧
        (t.lc.timer ≠ 1 → t.lc.timer ≠ s.conf.frameLength →
          t.lc.drive = ⟨true, s.pulls t.lc.timer, false⟩ ∧
          (s.station = .muted → t.lc.drive = ⟨true, false, false⟩)))

/-- CELL_START at a LISTENING station pulls nothing. A transition begins a cell, whose forerunner's duration, from 25 µs
to the own width, becomes the running width, and sets the silence count to 0; an own width that has passed since the
last change raises the silence count by 1, never above 765, and less than one leaves it; inside a frame mark a
transition starts no cell. A count that has reached three own frame lengths before the transition, by an own width that
ended within the cell too, stands, so that the station founds (R3, R5, R7, R14, R27, R34, R35). That own widths are
counted from the last change, which may be a warm restart within the cell, and that a transition at the very end of one
comes first, is the model's choice (log entry 24). -/
def Obligations.ListeningCellFollowsTheLine : Prop :=
  ∀ (o : CellObs) (s : State), s.station = .listening →
    let inMark := s.lc.framed = true ∧ s.lc.timer ≤ 1
    ∃ t, exec (.cellStart o) s = .next t ∧ t.mu = s.mu ∧ t.msu = s.msu ∧ t.ze = s.ze ∧ t.rg = s.rg ∧ t.cq = s.cq ∧
      (o.transition = true →
        (let before := if (s.conf.ownWidth : Int) < s.lc.silencePart + (if s.lc.fresh then o.since else o.width) then
            min 765 (s.lc.silence + 1) else s.lc.silence
         t.lc.silence = if 3 * s.conf.frameLength ≤ before then before else 0) ∧
        (inMark → t.lc.timer = s.lc.timer ∧ t.lc.running = s.lc.running ∧ t.ou = s.ou) ∧
        (¬inMark → t.lc.drive = .released ∧ t.lc.markable = true ∧ t.ou.cells = s.ou.cells + 1 ∧
          t.lc.running = max 25000 (min s.conf.ownWidth o.width))) ∧
      (o.transition = false → t.lc.drive = .released ∧ t.lc.markable = false ∧ t.ou.cells = s.ou.cells + 1 ∧
        t.lc.silence ≤ max s.lc.silence (min 765 (s.lc.silence + 1)) ∧
        let passed := if s.lc.fresh then o.since else if inMark then s.lc.running else s.conf.ownWidth
        ((s.conf.ownWidth : Int) ≤ s.lc.silencePart + passed → t.lc.silence = min 765 (s.lc.silence + 1)) ∧
        (s.lc.silencePart + passed < s.conf.ownWidth → t.lc.silence = s.lc.silence)) ∧
      (o.transition = false ∨ ¬inMark →
        t.lc.timer = if s.lc.framed then min (s.lc.timer + 1) s.conf.frameLength else s.lc.timer)

/-- CELL_START offers a DISTURBANCE for a cell that no station should pull, reads PULLED and is no mark's start, once a
frame: the first sets the indication, a later one offers nothing. Those cells are the quiet cell 2, the guard cells, 20
and 21 after an empty claim and 90 and 91 after a message, and at a receiver the pad cells, from the check's end to cell
88; cell 0 of a mark that the station issues is none of them (R8, R9, R13, R26). That a cell which a transition ended
before its rest sample is judged then, with the sample given, is log entry 28. -/
def Obligations.DisturbanceIsOfferedOnceAFrame : Prop :=
  ∀ (o : CellObs) (s : State), s.station.reading = true → s.lc.framed = true → 1 < s.lc.timer →
    let k := s.lc.timer
    let f := s.msu.frame
    let quiet := ¬(s.station.ticking = true ∧ k = s.conf.frameLength) ∧
      (k = 2 ∨ f.phase = .noMessage ∧ (k = 20 ∨ k = 21) ∨
        (f.phase = .message ∨ f.phase = .result) ∧ (k = 90 ∨ k = 91 ∨
          f.role = .receiver ∧ 4 ≤ f.cells.length ∧ 32 + 8 * dataLength f.kind ≤ k ∧ k ≤ 88))
    ∃ t, exec (.cellStart o) s = .next t ∧
      (quiet → o.mid = false → (o.rest = true ∨ s.lc.markable = false) →
        t.lc.disturbance = true ∧
        (s.lc.disturbance = false → t.cp = s.cp.offer (.line .disturbance s.lc.count)) ∧
        (s.lc.disturbance = true → t.cp = s.cp)) ∧
      ((¬quiet ∨ o.mid = true ∨ o.rest = false ∧ s.lc.markable = true) →
        t.lc.disturbance = s.lc.disturbance ∧ t.cp = s.cp)

/-- CELL_START in LINE FAULT: a transition begins no cell; an elapsed own width counts the local timer, and the clear
stretch by 1 up to 32, or sets it to 0 while a pull longer than 3 own widths lasts or has just ended (R5, R11, R23, R25,
R27). That the stretch is counted and cleared at these observations, from the lengths they report, is the model's choice
(log entry 18). -/
def Obligations.LineFaultGridRunsFree : Prop :=
  ∀ (o : CellObs) (s : State), s.station = .lineFault →
    ∃ t, exec (.cellStart o) s = .next t ∧ t.lc.drive = s.lc.drive ∧ t.lc.count = s.lc.count ∧
      t.lc.framed = s.lc.framed ∧ t.mu = s.mu ∧ t.msu = s.msu ∧ t.cq = s.cq ∧ t.ze = s.ze ∧ t.cp = s.cp ∧
      (o.transition = true → t.lc.timer = s.lc.timer ∧ t.ou = s.ou ∧
        t.lc.clear = if 3 * s.conf.ownWidth < s.lc.pullLength then 0 else s.lc.clear) ∧
      (o.transition = false → t.lc.timer = min (s.lc.timer + 1) s.conf.frameLength ∧
        t.lc.running = s.conf.ownWidth ∧ t.ou.cells = s.ou.cells + 1 ∧
        t.lc.clear = if 3 * s.conf.ownWidth < s.lc.pullLength ∨
            3 * s.conf.ownWidth < min o.pulledFor
              (s.lc.measured + if s.lc.fresh then o.since else s.conf.ownWidth) then 0
          else min 32 (s.lc.clear + 1))

/-- STUCK_PULL, of a pull that LC has measured for longer than 3 own widths, in LISTENING, ACTIVE or MUTED enters LINE
FAULT with cause STUCK PULL: the line released, unframed, the timer kept unless it stood at the own frame length, the
own record ABSENT and the others kept, bookkeeping and history cleared, the score kept, the frame given up, no item
presented, every live zone marked with its values kept, and the failsafe count 0. A contest's entry is QUEUED again
without an attempt. A message of the queue's on the line is ABANDONED: its entry is QUEUED again with an attempt more,
or removed as FAILED at the fourth. In LINE FAULT the clear stretch alone is set to 0. A pull already handed over, or
one that LC has measured for no more than 3 own widths since its entry or its warm restart, does nothing (R23, R25, R28,
R47, R48, R75, R91, R95, R120, R123, R143). -/
def Obligations.StuckPullEntersLineFault : Prop :=
  ∀ (o : PullObs) (order : OfferOrder) (s : State),
    let length := min o.pulledFor (s.lc.measured + if s.lc.fresh then o.since else o.width)
    (length ≤ 3 * s.conf.ownWidth ∨ s.lc.pullHanded = true → exec (.stuckPull o order) s = .next s) ∧
    (3 * s.conf.ownWidth < length → s.lc.pullHanded = false →
      (s.station.reading = true →
        ∃ t, exec (.stuckPull o order) s = .next t ∧ t.station = .lineFault ∧
          t.lc.drive = .released ∧ t.lc.framed = false ∧ t.lc.count = s.lc.count ∧ t.lc.running = s.lc.running ∧
          t.lc.timer = (if s.lc.timer = s.conf.frameLength then 0 else s.lc.timer) ∧ t.lc.clear = 0 ∧
          t.lc.contest = none ∧ t.lc.pullHanded = true ∧ t.lc.pullLength = length ∧
          t.lc.driveFault = s.lc.driveFault ∧
          t.mu.score = s.mu.score ∧ t.mu.members[s.number] = ⟨false, 0, s.conf.trackedSet⟩ ∧
          (∀ i : Fin 32, i ≠ s.number → t.mu.members[i] = s.mu.members[i]) ∧
          t.mu.lastCount = none ∧ t.mu.pairHeld = false ∧ t.mu.ownFree = false ∧ t.mu.faultBefore = false ∧
          t.msu = { s.msu with frame := .cleared .noFrame, slot := none } ∧
          t.rg = { s.rg with presented := none } ∧ t.ze.failsafe = 0 ∧
          (∀ z : Fin 16, t.ze.zones[z] = if s.conf.tracks z then
            { s.ze.zones[z] with unverified := true, age := 0, heard := false } else s.ze.zones[z]) ∧
          t.ss = s.ss ∧ t.ou = s.ou ∧ t.ku = s.ku ∧ t.cl = s.cl ∧
          (s.originating = false → t.cp = s.cp.offer (.state .lineFault .stuckPull) ∧
            (s.queueContends → t.cq = s.cq.land) ∧ (s.lc.contest = none → t.cq = s.cq)) ∧
          (s.originating = true → s.lc.contest = none →
            (s.msu.frame.presenter = some .generator →
              t.cq = s.cq ∧ t.cp = s.cp.offer (.state .lineFault .stuckPull)) ∧
            (∀ e : Entry, s.msu.frame.presenter = some .queue → s.cq.entries.find? Entry.inFlight = some e →
              (e.attempts < 3 → t.cp = s.cp.offer (.state .lineFault .stuckPull) ∧
                t.cq = { s.cq with entries := s.cq.entries.map fun x =>
                  if x.inFlight then { x with inFlight := false, attempts := x.attempts + 1 } else x }) ∧
              (3 ≤ e.attempts → t.cq.entries = s.cq.entries.filter (fun x => !x.inFlight) ∧
                (∀ tag, e.source = .companion tag → t.cq.counts = s.cq.counts ∧
                  (t.cp = s.cp.offerAll [.state .lineFault .stuckPull, .outcome tag .failed] ∨
                    t.cp = s.cp.offerAll [.outcome tag .failed, .state .lineFault .stuckPull])) ∧
                (∀ k : Fin 4, e.source = .key k → t.cp = s.cp.offer (.state .lineFault .stuckPull) ∧
                  t.cq.counts[k].failed = min 255 (s.cq.counts[k].failed + 1)))))) ∧
      (s.station = .lineFault → exec (.stuckPull o order) s =
        .next (s.setLc { s.lc with pullLength := length, pullHanded := true, clear := 0 })))

/-- LINE_CLEAR at a clear stretch of 32 takes LINE FAULT to LISTENING with cause LINE CLEAR: other records ABSENT, the
own record ABSENT with the tracked zones, the score and the zones kept, unframed on the own width with the timer and
count kept (R3, R23, R28, R32, R49, R127). -/
def Obligations.LineClearReturnsToListening : Prop :=
  ∀ s : State, s.station = .lineFault → s.lc.clear = 32 →
    ∃ t, exec .lineClear s = .next t ∧ t.station = .listening ∧ t.mu.score = s.mu.score ∧
      t.mu.members[s.number] = ⟨false, 0, s.conf.trackedSet⟩ ∧
      (∀ i : Fin 32, i ≠ s.number → t.mu.members[i] = .absent) ∧
      t.mu.lastCount = none ∧ t.mu.pairHeld = false ∧ t.mu.ownFree = false ∧ t.mu.faultBefore = false ∧
      t.lc.framed = false ∧ t.lc.running = s.conf.ownWidth ∧ t.lc.timer = s.lc.timer ∧ t.lc.count = s.lc.count ∧
      t.lc.slips = s.lc.slips ∧ t.lc.silence = 0 ∧ t.lc.drive = .released ∧ t.ze.zones = s.ze.zones ∧
      t.msu.frame = .cleared .noFrame ∧ t.msu.slot = none ∧ t.cq = s.cq ∧ t.ss = s.ss ∧ t.rg = s.rg ∧ t.ou = s.ou ∧
      t.ku = s.ku ∧ t.cl = s.cl ∧ t.cp = s.cp.offer (.state .listening .lineClear)

/-! ### Frame marks -/

/-- The station is in LISTENING with the silence count at three own frame lengths, so that it founds (R34, R35). -/
abbrev founding (s : State) : Prop := s.station = .listening ∧ 3 * s.conf.frameLength ≤ s.lc.silence

/-- Command `i` takes a frame mark from the line, with what `m` brings: one that the station issues, or one it
recognises (R13, R14) unless it founds (R35). -/
def takesLineMark (i : Instr) (m : MarkObs) (s : State) : Prop :=
  i = .frameTimerExpiry m ∧ s.station.ticking = true ∧ s.lc.framed = true ∧ s.lc.timer = s.conf.frameLength ∨
    i = .frameMark m ∧ s.station.reading = true ∧ s.lc.markable = true ∧ ¬founding s

/-- Command `i` takes a frame mark of any kind (R12). -/
def takesMark (i : Instr) (m : MarkObs) (s : State) : Prop :=
  takesLineMark i m s ∨
    i = .localFrameMark m ∧ s.station = .lineFault ∧ s.lc.timer = s.conf.frameLength ∨
    i = .founding m ∧ founding s

/-- The generator contends in the frame, or its message is under way in it (R21, R62). -/
def generatorSends (s : State) : Prop :=
  (∃ c, s.lc.contest = some c ∧ c.by_ = .generator) ∨
    (s.msu.frame.phase = .message ∧ s.msu.frame.presenter = some .generator)

/-- What every mark does at LC, MSU, RG, OU and CL: the timer returns to 0, the count becomes `count`, the indications
are cleared, the cell numbering starts with no field read, the slot is empty, the settle gap rises by 1 up to 64, a
contest or message of the generator's that it cuts leaves no item presented, the frame position is 0 and every channel
has latched its zone's current level (R11, R12, R17, R77, R139, R143, R148, R154). -/
def startsFrame (s t : State) (count : Byte) (phase : Phase) (framed : Bool) : Prop :=
  t.lc.timer = 0 ∧ t.lc.count = count ∧ t.lc.framed = framed ∧ t.lc.driveFault = false ∧ t.lc.disturbance = false ∧
    t.lc.claimEmpty = false ∧ t.lc.nextCell = 3 ∧ t.lc.countRead = false ∧ t.lc.claimOpen = false ∧
    t.lc.contest = none ∧ t.lc.slips = s.lc.slips ∧ t.msu = { s.msu with frame := .cleared phase, slot := none } ∧
    t.rg.gap = min 64 (s.rg.gap + 1) ∧ t.rg.cursor = s.rg.cursor ∧ t.rg.lastOwn = s.rg.lastOwn ∧
    (generatorSends s → t.rg.presented = none) ∧ t.ou.position = 0 ∧ t.ou.cells = 0 ∧
    (∀ ch : Fin 4, t.ou.latched[ch] = match s.conf.outputs[ch].zone with
      | some z => t.ze.zones[z].current
      | none => 0) ∧
    t.cl = s.cl

/-- FRAME_TIMER_EXPIRY at a ticking station and FRAME_MARK in LISTENING, ACTIVE or MUTED start a frame with the count
increased by 1. The frame basis becomes the own frame length at an issued mark; at a framed station's normal start, from
cell 22 on after an empty claim, from cell 92 on otherwise, or with the timer at the own frame length, the ended frame's
number of cells, at most 255, if it is 92 or more; and it stays at any other framed mark, which cuts the frame short,
and at an unframed station. A station that ticks after the mark pulls the rest of cell 0 from it, so that an issuer,
which pulls the cell from its start, pulls it whole; a station that stays LISTENING pulls nothing. The generator's
contest or message that a mark cuts leaves no item presented (R8, R9, R11 to R17, R35, R60, R143, R150). That a mark in
the window before the own frame length is a normal start, against the example of section 7.8, is read from R8, R9 and
R15 (log entry 34). The model's choices are that the issued mark is taken whatever the rest sample of its cell 0 reads
(log entry 27), and that a station whose silence count has reached its founding threshold takes no other mark, so that
FRAME_MARK changes nothing until FOUNDING (log entry 31). -/
def Obligations.LineMarksStartFrames : Prop :=
  ∀ (m : MarkObs) (s : State),
    (s.station.ticking = true → s.lc.framed = true → s.lc.timer = s.conf.frameLength →
      ∃ t, exec (.frameTimerExpiry m) s = .next t ∧ startsFrame s t (s.lc.count + 1) .claim true ∧
        t.ou.basis = some s.conf.frameLength ∧ t.lc.drive = { s.lc.drive with rest := true } ∧
        (s.lc.drive = .whole → t.lc.drive = .whole)) ∧
    (founding s → exec (.frameMark m) s = .next s) ∧
    (s.station.reading = true → s.lc.markable = true → ¬founding s →
      ∃ t, exec (.frameMark m) s = .next t ∧ startsFrame s t (s.lc.count + 1) .claim true ∧
        (t.station.ticking = true → t.lc.drive = { s.lc.drive with rest := true }) ∧
        (t.station.ticking = false → t.lc.drive = .released) ∧
        let window := if s.msu.frame.phase = .noMessage then 22 else 92
        (s.lc.framed = true → (s.lc.timer = s.conf.frameLength ∨ window ≤ s.lc.timer) → t.ou.basis =
          if 92 ≤ s.ou.cells then some (min 255 s.ou.cells) else s.ou.basis) ∧
        (s.lc.framed = true → s.lc.timer ≠ s.conf.frameLength → s.lc.timer < window → t.ou.basis = s.ou.basis) ∧
        (s.lc.framed = false → t.ou.basis = s.ou.basis))

/-- What a mark that applies no message does to the live records `r`: stage (b) counts each hold, which expires at its
last count, stage (c) takes one fade step, and `o` holds their ZONE events, stage by stage in zone order, with target
and current as they stand at the end of the stage. Other records stay (R103, R105, R114, R115, R126). -/
def agesZones (s t : State) (o : Offers) (r : Fin 16 → ZoneRecord) : Prop :=
  ∃ b : Fin 16 → ZoneRecord,
    (∀ z : Fin 16,
      ((r z).hold = none → b z = r z) ∧
      (∀ h : Hold, (r z).hold = some h → 1 < h.remainder →
        b z = { r z with hold := some { h with remainder := h.remainder - 1 } }) ∧
      (∀ h : Hold, (r z).hold = some h → h.remainder ≤ 1 → b z = { r z with
        hold := none, target := h.vacant, fade := if h.fade = 0 then 0 else 2 ^ h.fade.val,
        current := if h.fade = 0 then h.vacant else (r z).current,
        lastOn := if 0 < h.vacant then h.vacant else (r z).lastOn })) ∧
    (∀ z : Fin 16, t.ze.zones[z] = if s.conf.tracks z then (b z).fadeStep else s.ze.zones[z]) ∧
    o.zone =
      ((List.finRange 16).filterMap fun z =>
        if s.conf.tracks z ∧ (r z).hold.any (fun h => decide (h.remainder ≤ 1)) = true then
          some (.zone z .holdEnd (b z).target (b z).current) else none) ++
      ((List.finRange 16).filterMap fun z =>
        if s.conf.tracks z ∧ (b z).fade = 1 then some (.zone z .fadeEnd (b z).target (b z).target) else none)

/-- LOCAL_FRAME_MARK in LINE FAULT: the local timer's mark starts a local frame with the count increased by 1, pulls
nothing, leaves membership and the scene store as they were, and counts the failsafe up to its limit. With no message in
the slot, which LINE FAULT empties, every live record first takes the failsafe at the mark that brings the count to its
limit, which offers no event of its own, and then counts its hold and takes one fade step; the mark offers their ZONE
events, and OUTCOMEs of the claim queue alone beside them (R11, R48, R60, R75, R105, R114, R115, R123, R126, R150,
R157). -/
def Obligations.LocalMarkRunsTheStationAlone : Prop :=
  ∀ (m : MarkObs) (s : State), s.station = .lineFault → s.lc.timer = s.conf.frameLength →
    ∃ t, exec (.localFrameMark m) s = .next t ∧ startsFrame s t (s.lc.count + 1) .noFrame false ∧
      t.ou.basis = some s.conf.frameLength ∧ t.lc.drive = .released ∧ t.station = .lineFault ∧
      t.mu.score = s.mu.score ∧ (s.msu.slot = none → t.mu.members = s.mu.members) ∧
      (s.ze.failsafe < 8 * s.conf.failDelay → t.ze.failsafe = s.ze.failsafe + 1) ∧
      (8 * s.conf.failDelay ≤ s.ze.failsafe → t.ze.failsafe = s.ze.failsafe) ∧
      (s.msu.slot = none → t.ss = s.ss ∧ ∃ o : Offers, t.cp = s.cp.offerAll (interleave m.offers o.lists) ∧
        o.line = [] ∧ o.commit = [] ∧ o.state = [] ∧ o.member = [] ∧ o.duplicate = [] ∧
        (∀ x ∈ o.outcome, ∃ tag v, x = .outcome tag v) ∧
        agesZones s t o fun z => if s.ze.failsafe + 1 = 8 * s.conf.failDelay then { s.ze.zones[z] with
            target := s.conf.failLevel
            fade := if s.conf.failFade = 0 then 0 else 2 ^ s.conf.failFade.val
            current := if s.conf.failFade = 0 then s.conf.failLevel else s.ze.zones[z].current
            lastOn := if 0 < s.conf.failLevel then s.conf.failLevel else s.ze.zones[z].lastOn
            hold := if s.conf.failLevel = 0 then none else s.ze.zones[z].hold
            unverified := true, age := 0, heard := false }
          else s.ze.zones[z])

/-- FOUNDING in LISTENING after three own frame lengths of silence: entry to membership by the score, bookkeeping
cleared, the station framed with count 0, the mark pulled, the frame basis the own frame length, and STATE with cause
FOUNDED offered. Every live zone is marked unverified with age 0, and the mark then counts its hold and takes one fade
step, with their ZONE events (R13, R17, R33, R34, R105, R114, R115, R120, R126, R150). That the founding mark hands over
no settled message even at a full slot, so that no zone and no other record takes it, the scene store stays and no
COMMIT is offered, is read from R77 and R106 (log entry 12); that the cell just begun is its cell 0 is log entry 31. -/
def Obligations.FoundingMakesAMember : Prop :=
  ∀ (m : MarkObs) (s : State), founding s →
    ∃ t, exec (.founding m) s = .next t ∧ startsFrame s t 0 .claim true ∧
      t.station = (if s.mu.score < 64 then .active else .muted) ∧ t.mu.score = s.mu.score ∧
      t.mu.members[s.number] = ⟨decide (s.mu.score < 64), 0, s.conf.trackedSet⟩ ∧
      (∀ i : Fin 32, i ≠ s.number → t.mu.members[i] = s.mu.members[i]) ∧
      t.mu.lastCount = none ∧ t.mu.pairHeld = false ∧ t.mu.ownFree = false ∧ t.lc.drive = .whole ∧
      t.ou.basis = some s.conf.frameLength ∧ t.ss = s.ss ∧ t.rg.presented = none ∧
      (∀ z : Fin 16, s.conf.tracks z = true → t.ze.zones[z].unverified = true ∧ t.ze.zones[z].age = 0) ∧
      ∃ o : Offers, t.cp = s.cp.offerAll (interleave m.offers o.lists) ∧
        o.line = [] ∧ o.commit = [] ∧ o.state = [.state t.station .founded] ∧ o.member = [] ∧ o.duplicate = [] ∧
        (∀ x ∈ o.outcome, ∃ tag v, x = .outcome tag v) ∧
        agesZones s t o fun z => { s.ze.zones[z] with unverified := true, age := 0, heard := false }

/-- At a mark taken from the line, issued or recognised, a station that joins at it marks its zones first. Then every
live record takes the settled message in stage (a), its hold's count in stage (b), and one fade step in stage (c); other
records stay. An unverified record that the message verifies, a ZONE STATEMENT for it, gives the STATEMENT event; one
that is still unverified gains 1 in its age at a mark that ends a frame spent ACTIVE throughout, is cleared with AGED at
64, and is left at any other mark; a mark at which the station is ACTIVE begins such a frame. The scene store applies
the message. The origin's record becomes PRESENT with misses 0 and takes the zone a statement names; other records of
the member table stay. A contest or message of the generator's that the mark cuts leaves no item presented, and any
other mark at which the station state stays leaves the item as it was. The reports of the mark, in an order that the
operand chooses: DISTURBANCE at a cut of a frame that has offered none, with the count before or after its increase,
COMMIT of the message, STATE of a join or an unmuting, MEMBER JOINED of an origin that was ABSENT, ZONE events stage by
stage, OUTCOMEs, and DUPLICATE NUMBER for the own number in another station's message (R12, R14 to R16, R39, R53, R77,
R78, R105, R106, R112 to R115, R121, R126, R130, R143). That a station which joins at the mark counts as a member for
DUPLICATE NUMBER is read from the order of MU's work (log entry 13), and that a join asks for a complete count field
from R36 (log entry 15); that the operand orders MU's own STATE, MEMBER and DUPLICATE NUMBER too is the model's choice
(log entry 37). -/
def Obligations.MarkHandsOverTheSettledMessage : Prop :=
  ∀ (i : Instr) (m : MarkObs) (s : State), takesLineMark i m s →
    let joins := s.station = .listening ∧ s.lc.countRead = true ∧ s.mu.pairHeld = true ∧ s.mu.ownFree = true
    let cut := i = .frameMark m ∧ s.lc.framed = true ∧ s.lc.timer ≠ s.conf.frameLength ∧
      s.lc.timer < (if s.msu.frame.phase = .noMessage then 22 else 92)
    let count := fun counted : Bool => if counted then s.lc.count + 1 else s.lc.count
    let msg := s.msu.slot.bind fun x => readMsg x.kind x.bits
    let entered := fun z : Fin 16 => if joins then
      { s.ze.zones[z] with unverified := true, age := 0, heard := false } else s.ze.zones[z]
    let applied : Fin 16 → ZoneRecord := fun z => match msg with
      | some x => (entered z).apply s.ss.stored x z
      | none => entered z
    let a : Fin 16 → ZoneRecord × Option ZoneCause := fun z =>
      if (entered z).unverified = true ∧ (applied z).unverified = false then (applied z, some ZoneCause.statement)
      else if (applied z).unverified = true ∧ s.station = .active ∧ s.mu.activeFrame = true then
        if (applied z).age < 63 then ({ applied z with age := (applied z).age + 1 }, none)
        else ({ applied z with unverified := false, age := 64 }, some .aged)
      else (applied z, none)
    let b : Fin 16 → ZoneRecord × Option ZoneCause := fun z => match (a z).1.hold with
      | none => ((a z).1, none)
      | some h =>
        if 1 < h.remainder then ({ (a z).1 with hold := some { h with remainder := h.remainder - 1 } }, none)
        else ({ (a z).1 with
          hold := none, target := h.vacant, fade := if h.fade = 0 then 0 else 2 ^ h.fade.val,
          current := if h.fade = 0 then h.vacant else (a z).1.current,
          lastOn := if 0 < h.vacant then h.vacant else (a z).1.lastOn }, some ZoneCause.holdEnd)
    let c := fun z : Fin 16 => (b z).1.stageC
    let events := fun f : Fin 16 → ZoneRecord × Option ZoneCause =>
      (List.finRange 16).filterMap fun z => if s.conf.tracks z then
        (f z).2.map fun cause => Report.zone z cause (f z).1.target (f z).1.current else none
    ∃ (t : State) (o : Offers), exec i s = .next t ∧ (t.mu.activeFrame = true ↔ t.station = .active) ∧
      (generatorSends s → t.rg.presented = none) ∧
      (¬generatorSends s → t.station = s.station → t.rg.presented = s.rg.presented) ∧
      (∀ z : Fin 16, t.ze.zones[z] = if s.conf.tracks z then (c z).1 else s.ze.zones[z]) ∧
      t.ss = (match msg with
        | some x => s.ss.apply s.conf s.ze x
        | none => s.ss) ∧
      (∀ x, s.msu.slot = some x → claimOrigin x.claim ≠ s.number →
        t.mu.members[claimOrigin x.claim] = ⟨true, 0, match msg with
          | some (.zoneStatement z _ _ _ _) | some (.holdStatement z _ _ _ _) | some (.sceneStatement _ z _ _ _) =>
            s.mu.members[claimOrigin x.claim].zones ||| (1#16 <<< z.val)
          | _ => s.mu.members[claimOrigin x.claim].zones⟩) ∧
      (∀ n : Fin 32, n ≠ s.number → (∀ x, s.msu.slot = some x → claimOrigin x.claim ≠ n) →
        t.mu.members[n] = s.mu.members[n]) ∧
      t.cp = s.cp.offerAll (interleave m.offers o.lists) ∧
      o.line = (if cut ∧ s.lc.disturbance = false then [.line .disturbance (count m.cutCounted)] else []) ∧
      o.commit = s.msu.slot.toList.map (fun x =>
        .commit x.count x.claim x.kind (bytesOfBits (dataLength x.kind) x.bits)) ∧
      o.state = (if joins then [.state (if s.mu.score < 64 then .active else .muted) .joined]
        else if s.station = .muted ∧ t.station = .active then [.state .active .scoreLow] else []) ∧
      o.member = s.msu.slot.toList.filterMap (fun x =>
        if claimOrigin x.claim ≠ s.number ∧ s.mu.members[claimOrigin x.claim].present = false then
          some (.member (claimOrigin x.claim) true) else none) ∧
      o.zone = events a ++ events b ++ events c ∧
      (∀ r ∈ o.outcome, ∃ tag v, r = .outcome tag v) ∧
      o.duplicate = s.msu.slot.toList.filterMap (fun x =>
        if claimOrigin x.claim = s.number ∧ x.own = false ∧ (s.station.ticking = true ∨ joins) then
          some (.line .duplicateNumber (count m.duplicateCounted)) else none)

/-- A LISTENING station that has read the count field, holds the count pair and has seen its own cell FREE joins at the
mark: ACTIVE, or MUTED at a score of 64 or more, the bookkeeping cleared; without all three it stays LISTENING (R33,
R36, R38). The complete count field as a third condition, with the pair cleared before the test where there is none, is
read from R36's clearing at an incomplete field (log entry 15). -/
def Obligations.JoinNeedsPairAndFreeOwnCell : Prop :=
  ∀ (m : MarkObs) (s : State), s.station = .listening → s.lc.markable = true → ¬founding s →
    ∃ t, exec (.frameMark m) s = .next t ∧ t.mu.score = s.mu.score ∧
      (s.lc.countRead = true → s.mu.pairHeld = true → s.mu.ownFree = true →
        t.station = (if s.mu.score < 64 then .active else .muted) ∧ t.mu.lastCount = none ∧ t.mu.pairHeld = false ∧
        t.mu.ownFree = false ∧ t.mu.members[s.number] = ⟨decide (s.mu.score < 64), 0, s.conf.trackedSet⟩) ∧
      (s.lc.countRead = true → (s.mu.pairHeld = false ∨ s.mu.ownFree = false) →
        t.station = .listening ∧ t.mu.lastCount = s.mu.lastCount ∧ t.mu.pairHeld = s.mu.pairHeld ∧
        t.mu.ownFree = s.mu.ownFree) ∧
      (s.lc.countRead = false →
        t.station = .listening ∧ t.mu.lastCount = none ∧ t.mu.pairHeld = false ∧ t.mu.ownFree = s.mu.ownFree)

/-- A clean frame lowers a member's score by 1 at the mark that ends it, issued or recognised; any other frame leaves
it. A MUTED station then at 16 or less becomes ACTIVE, its own record PRESENT, its zones not marked for it and no item
presented; the drive-fault history records the ended frame (R43, R44, R46, R51, R146). -/
def Obligations.CleanFramesLowerTheScore : Prop :=
  ∀ (i : Instr) (m : MarkObs) (s : State), takesLineMark i m s → s.station.ticking = true → MembersOk s →
    ∃ t, exec i s = .next t ∧
      t.mu.score = (if s.mu.memberFrame = true ∧ s.mu.raised = false ∧
        (s.msu.frame.phase = .noMessage ∨ s.msu.frame.phase ≠ .message ∧ s.msu.frame.result = some .settled)
        then s.mu.score - 1 else s.mu.score) ∧
      t.mu.faultBefore = s.lc.driveFault ∧
      t.station = (if s.station = .muted ∧ t.mu.score ≤ 16 then .active else s.station) ∧
      t.mu.members[s.number] = ⟨decide (t.station = .active), 0, s.conf.trackedSet⟩ ∧
      (s.station = .muted → t.station = .active → t.rg.presented = none) ∧
      (∀ z : Fin 16, s.ze.zones[z].unverified = false → t.ze.zones[z].unverified = false) ∧
      (∀ z : Fin 16, s.conf.tracks z = true → t.station = .active → s.station = .muted →
        s.msu.slot = none → t.ze.zones[z].unverified = s.ze.zones[z].unverified ∧
          t.ze.zones[z].age = s.ze.zones[z].age ∧ t.ze.zones[z].heard = s.ze.zones[z].heard)

/-! ### Zones, scenes, requests that age, and keys -/

/-- The apply rules at a live zone's record: LEVEL, STEP, TOGGLE, HALT and OCCUPY, holds checked after each, so that a
record whose target becomes 0 loses its hold; RECALL as a LEVEL of the stored level, or nothing where none is stored;
ZONE STATEMENT, which sets the stated values and clears the unverified mark; HOLD STATEMENT, which sets or removes the
hold of a record whose target is above 0. Every other message, and one for another zone, leaves the record (R107 to
R111, R113, R116, R117, R119). That a ZONE STATEMENT sets the age to 0 also where ageing has left it at 64 is the
model's choice (log entry 35), and so is that a HALT with no fade in progress sets a last-on that differs (log entry
36). -/
def Obligations.RequestsChangeAZoneAsTheirRulesSay : Prop :=
  ∀ (stored : Fin 16 → Fin 16 → Option Nat) (z : Fin 16) (r : ZoneRecord), r.Ok →
    (∀ (l : Nat) (c : Fin 16), l ≤ 1023 → ∃ t, r.apply stored (.level z c l) z = t ∧ t.target = l ∧
      t.fade = (if c = 0 then 0 else 2 ^ c.val) ∧ t.current = (if c = 0 then l else r.current) ∧
      t.lastOn = (if 0 < l then l else r.lastOn) ∧ t.hold = (if l = 0 then none else r.hold) ∧
      t.unverified = r.unverified ∧ t.age = r.age ∧ t.heard = r.heard) ∧
    (∀ d : Int, -511 ≤ d → d ≤ 511 → d ≠ 0 → ∃ t, r.apply stored (.step z d) z = t ∧
      (t.target : Int) = max 0 (min 1023 (r.target + d)) ∧ t.fade = 4 ∧ t.current = r.current ∧
      t.lastOn = (if 0 < t.target then t.target else r.lastOn) ∧ t.hold = (if t.target = 0 then none else r.hold) ∧
      t.unverified = r.unverified ∧ t.age = r.age ∧ t.heard = r.heard) ∧
    (∀ c : Fin 16, r.apply stored (.toggle z c) z =
      r.apply stored (.level z c (if 0 < r.target then 0 else r.lastOn)) z) ∧
    (r.apply stored (.halt z) z = { r with
      target := r.current, fade := 0, lastOn := if 0 < r.current then r.current else r.lastOn,
      hold := if r.current = 0 then none else r.hold }) ∧
    (∀ (k c : Fin 16) (v : Nat), v ≤ 1023 → ∃ t, r.apply stored (.occupy z k c v) z = t ∧
      (k = 0 → t = { r with hold := none }) ∧
      (k ≠ 0 → t.hold = some ⟨4096 * k.val, v, c⟩ ∧ t.target = (if r.target = 0 then r.lastOn else r.target) ∧
        (r.target ≠ 0 → t = { r with hold := some ⟨4096 * k.val, v, c⟩ }) ∧
        (r.target = 0 → t.lastOn = r.lastOn ∧ t.fade = (if c = 0 then 0 else 2 ^ c.val) ∧
          t.current = (if c = 0 then r.lastOn else r.current)))) ∧
    (∀ sc c : Fin 16, r.apply stored (.recall sc c) z = match stored sc z with
      | some l => r.apply stored (.level z c l) z
      | none => r) ∧
    (∀ (t c f l : Nat), r.apply stored (.zoneStatement z t c f l) z = { r with
      target := t, current := c, fade := f, lastOn := l, hold := if t = 0 then none else r.hold,
      unverified := false, age := 0, heard := true }) ∧
    (∀ (p : Bool) (f v : Nat) (c : Fin 16), r.apply stored (.holdStatement z p f v c) z =
      if r.target = 0 then r else { r with hold := if p then some ⟨f, v, c⟩ else none }) ∧
    (∀ m : Msg, (∀ y c l, m = .level y c l → y ≠ z) → (∀ y d, m = .step y d → y ≠ z) →
      (∀ y c, m = .toggle y c → y ≠ z) → (∀ y, m = .halt y → y ≠ z) → (∀ y k c v, m = .occupy y k c v → y ≠ z) →
      (∀ sc c, m ≠ .recall sc c) → (∀ y t c f l, m = .zoneStatement y t c f l → y ≠ z) →
      (∀ y p f v c, m = .holdStatement y p f v c → y ≠ z) → r.apply stored m z = r)

/-- One fade step adds to current the difference from the target divided by the remainder, truncated toward zero, and
takes 1 from the remainder; at a remainder of 1 current becomes the target, with FADE END, and at 0 nothing changes. A
fade of r steps so stands at its target after r of them, and no step leaves the span between where the fade stood and
its target (R104, R114). -/
def Obligations.FadeReachesItsTarget : Prop :=
  (∀ r : ZoneRecord, (r.fade = 0 → r.current = r.target) →
    (Nat.iterate ZoneRecord.fadeStep r.fade r).current = r.target ∧
    (Nat.iterate ZoneRecord.fadeStep r.fade r).fade = 0) ∧
  (∀ r : ZoneRecord, min r.current r.target ≤ r.fadeStep.current ∧ r.fadeStep.current ≤ max r.current r.target ∧
    r.fadeStep.target = r.target ∧ r.fadeStep.fade = r.fade - 1) ∧
  (∀ r : ZoneRecord,
    (r.fade = 0 → r.fadeStep = r) ∧ (r.fade = 1 → r.fadeStep = { r with current := r.target, fade := 0 }) ∧
    (1 < r.fade → r.current ≤ r.target → r.fadeStep =
      { r with current := r.current + (r.target - r.current) / r.fade, fade := r.fade - 1 }) ∧
    (1 < r.fade → r.target ≤ r.current → r.fadeStep =
      { r with current := r.current - (r.current - r.target) / r.fade, fade := r.fade - 1 }) ∧
    r.stageC = (r.fadeStep, if r.fade = 1 then some .fadeEnd else none))

/-- A settled SCENE STATEMENT is adopted at a tracked zone when its generation equals the entry's or is 1 to 128 ahead
of it modulo 256, and otherwise refused with the entry's correction mark set; the generation table takes a newer
generation in every case; no other entry and no other scene's generation changes. A settled CAPTURE sets the scene's
generation, whatever it was, and every tracked zone's entry to the zone's target with that generation and the mark
clear. No other message changes the tables. A RECALL lookup answers with the entry's level, or that there is none (R132,
R134, R135, R137). -/
def Obligations.SceneStatementsAreComparedSerially : Prop :=
  (∀ (ss : Ss) (c : Configuration) (ze : Ze) (sc z : Fin 16) (g : Byte) (present : Bool) (level : Nat),
    let t := ss.apply c ze (.sceneStatement sc z g present level)
    let ahead := fun e : Byte => (g.toNat + 256 - e.toNat) % 256
    (c.tracks z = true → ahead (ss.entry sc z).gen ≤ 128 →
      t.entry sc z = ⟨if present then some level else none, g, false⟩) ∧
    (c.tracks z = true → 128 < ahead (ss.entry sc z).gen →
      t.entry sc z = { ss.entry sc z with correction := true }) ∧
    (c.tracks z = false → t.entries = ss.entries) ∧
    (∀ s2 z2 : Fin 16, (s2, z2) ≠ (sc, z) → t.entry s2 z2 = ss.entry s2 z2) ∧
    (1 ≤ ahead ss.gens[sc] → ahead ss.gens[sc] ≤ 128 → t.gens[sc] = g) ∧
    ((ahead ss.gens[sc] = 0 ∨ 128 < ahead ss.gens[sc]) → t.gens[sc] = ss.gens[sc]) ∧
    (∀ s2 : Fin 16, s2 ≠ sc → t.gens[s2] = ss.gens[s2])) ∧
  (∀ (ss : Ss) (c : Configuration) (ze : Ze) (sc : Fin 16) (g : Byte),
    let t := ss.apply c ze (.capture sc g)
    t.gens[sc] = g ∧ (∀ s2 : Fin 16, s2 ≠ sc → t.gens[s2] = ss.gens[s2]) ∧
    (∀ z : Fin 16, t.entry sc z = if c.tracks z then ⟨some ze.zones[z].target, g, false⟩ else ss.entry sc z) ∧
    (∀ z : Fin 16, c.tracks z = true → t.stored sc z = some ze.zones[z].target) ∧
    (∀ s2 z : Fin 16, s2 ≠ sc → t.entry s2 z = ss.entry s2 z)) ∧
  (∀ (ss : Ss) (c : Configuration) (ze : Ze) (m : Msg), (∀ sc g, m ≠ .capture sc g) →
    (∀ sc z g p l, m ≠ .sceneStatement sc z g p l) → ss.apply c ze m = ss) ∧
  (∀ (ss : Ss) (sc z : Fin 16), (ss.stored sc z = none ↔ (ss.entry sc z).level = none) ∧
    ∀ l, ss.stored sc z = some l ↔ (ss.entry sc z).level = some l)

/-- The last fade step, the last count of a hold and the last count of an unverified age at a live zone: FADE_END sets
current to target, HOLD_EXPIRY removes the hold and makes the level change to its vacant level, AGED clears the mark
with the age at 64; each offers its ZONE event and changes no other record (R114, R115, R121, R126). That such a row
does one record's part apart from a mark is the model's choice (log entry 4). -/
def Obligations.ZoneTimersEndWithTheirEvents : Prop :=
  ∀ (z : Fin 16) (s : State), s.station.running = true → s.conf.tracks z = true →
    let r := s.ze.zones[z]
    let wrote := fun t : ZoneRecord => s.setZe { s.ze with zones := s.ze.zones.set z t }
    (r.fade = 1 → exec (.fadeEnd z) s = .next ((wrote { r with current := r.target, fade := 0 }).setCp
      (s.cp.offer (.zone z .fadeEnd r.target r.target)))) ∧
    (∀ h : Hold, r.hold = some h → h.remainder = 1 → exec (.holdExpiry z) s =
      .next ((wrote { r with
        hold := none, target := h.vacant, fade := if h.fade = 0 then 0 else 2 ^ h.fade.val,
        current := if h.fade = 0 then h.vacant else r.current,
        lastOn := if 0 < h.vacant then h.vacant else r.lastOn }).setCp
        (s.cp.offer (.zone z .holdEnd h.vacant (if h.fade = 0 then h.vacant else r.current))))) ∧
    (r.unverified = true → r.age = 63 → s.station = .active → s.mu.activeFrame = true →
      exec (.aged z) s = .next ((wrote { r with unverified := false, age := 64 }).setCp
        (s.cp.offer (.zone z .aged r.target r.current))))

/-- FAILSAFE, at the count before 8 times the failsafe delay in LINE FAULT, sets every live zone to the failsafe level
with its fade code, removes holds at a level of 0 and marks the zones unverified; it offers nothing (R113, R120, R123).
That the row does this apart from the local mark, at the count before the limit, is the model's choice (log entry 4). -/
def Obligations.FailsafeSetsEveryLiveZone : Prop :=
  ∀ s : State, s.station = .lineFault → s.ze.failsafe + 1 = 8 * s.conf.failDelay →
    ∃ t, exec .failsafe s = .next t ∧ t = s.setZe t.ze ∧ t.ze.failsafe = 8 * s.conf.failDelay ∧
      ∀ z : Fin 16,
        (s.conf.tracks z = false → t.ze.zones[z] = s.ze.zones[z]) ∧
        (s.conf.tracks z = true →
          t.ze.zones[z].target = s.conf.failLevel ∧
          t.ze.zones[z].fade = (if s.conf.failFade = 0 then 0 else 2 ^ s.conf.failFade.val) ∧
          t.ze.zones[z].current = (if s.conf.failFade = 0 then s.conf.failLevel else s.ze.zones[z].current) ∧
          t.ze.zones[z].lastOn = (if 0 < s.conf.failLevel then s.conf.failLevel else s.ze.zones[z].lastOn) ∧
          t.ze.zones[z].hold = (if s.conf.failLevel = 0 then none else s.ze.zones[z].hold) ∧
          t.ze.zones[z].unverified = true ∧ t.ze.zones[z].age = 0 ∧ t.ze.zones[z].heard = false)

/-- The entries of the claim queue that a mark finds after it has ended the frame: where the queue contended or its
message was on the line, the entry IN FLIGHT is QUEUED again and unchanged otherwise (R91, R94). -/
def afterFrame (s : State) (q : Cq) : Cq :=
  if s.lc.contest.map Contest.by_ = some .queue ∨
      s.msu.frame.phase = .message ∧ s.msu.frame.presenter = some .queue then
    { q with entries := q.entries.map fun e => { e with inFlight := false } }
  else q

/-- The offer that channel `k` makes at a mark, if it makes one. -/
def offerAtMark (m : MarkObs) (s : State) (k : Fin 4) : Option Request :=
  (s.ku.channels[k].atMark s.conf.keys[k] s.conf.longPress (m.keys.getLsbD k.val)).2

/-- STALE removes the QUEUED entry whose age the mark brings to the limit: a key's stale count rises, a companion's tag
gets its OUTCOME; an entry IN FLIGHT or below the limit stays. That this row sweeps one entry apart from a mark, raising
no other age, is the model's choice (log entry 4). At a mark of any kind, which returns the entry of a contest or
message that it cuts to QUEUED, the sweep raises every age by 1 up to 255 and removes the QUEUED entries at or above the
limit, each with its count or its OUTCOME in list order. A key's offer at the mark is taken before or after the return
and the sweep, as the operand orders them (R73, R88, R91, R94, R96 to R98, R167). -/
def Obligations.StaleEntriesAreRemoved : Prop :=
  (∀ (i : Nat) (e : Entry) (s : State), s.station.running = true → s.cq.entries[i]? = some e →
    ((e.inFlight = true ∨ min 255 (e.age + 1) < s.conf.staleness) → exec (.stale i) s = .next s) ∧
    (e.inFlight = false → s.conf.staleness ≤ min 255 (e.age + 1) →
      ∃ t, exec (.stale i) s = .next t ∧ t.cq.entries = s.cq.entries.eraseIdx i ∧
        t = (s.setCq t.cq).setCp t.cp ∧
        (∀ tag, e.source = .companion tag → t.cq.counts = s.cq.counts ∧ t.cp = s.cp.offer (.outcome tag .stale)) ∧
        (∀ k : Fin 4, e.source = .key k → t.cp = s.cp ∧
          t.cq.counts[k].stale = min 255 (s.cq.counts[k].stale + 1) ∧
          t.cq.counts[k].sent = s.cq.counts[k].sent ∧ t.cq.counts[k].failed = s.cq.counts[k].failed ∧
          t.cq.counts[k].dropped = s.cq.counts[k].dropped))) ∧
  (∀ (i : Instr) (m : MarkObs) (s : State), takesMark i m s → m.wellFormed = true → CountsOk s →
    let swept := fun q : Cq => (q.sweep s.conf.staleness).1
    let aged := (afterFrame s s.cq).entries.map fun e => { e with age := min 255 (e.age + 1) }
    let goes := fun e : Entry => !e.inFlight && decide (s.conf.staleness ≤ e.age)
    ((∀ k : Fin 4, offerAtMark m s k = none) →
      ∃ (t : State) (o : Offers), exec i s = .next t ∧ t.cq.entries = aged.filter (fun e => !goes e) ∧
        (∀ k : Fin 4, t.cq.counts[k].stale =
          min 255 (s.cq.counts[k].stale + ((aged.filter goes).filter fun e => e.source == .key k).length) ∧
          t.cq.counts[k].sent = s.cq.counts[k].sent ∧ t.cq.counts[k].failed = s.cq.counts[k].failed ∧
          t.cq.counts[k].dropped = s.cq.counts[k].dropped) ∧
        t.cp = s.cp.offerAll (interleave m.offers o.lists) ∧
        o.outcome = (aged.filter goes).filterMap fun e => match e.source with
          | .companion tag => some (.outcome tag .stale)
          | .key _ => none) ∧
    (∀ (k : Fin 4) (req : Request) (rest : List QueueTask), offerAtMark m s k = some req →
      (∀ j : Fin 4, j ≠ k → offerAtMark m s j = none) →
      let offered := fun q : Cq => (q.take (.key k) s.conf.keys[k].prio req).cq
      (m.queueOrder = .key k :: .frameEnd :: .sweep :: rest →
        ∃ t, exec i s = .next t ∧ t.cq = swept (afterFrame s (offered s.cq))) ∧
      (m.queueOrder = .frameEnd :: .key k :: .sweep :: rest →
        ∃ t, exec i s = .next t ∧ t.cq = swept (offered (afterFrame s s.cq))) ∧
      (m.queueOrder = .frameEnd :: .sweep :: .key k :: rest →
        ∃ t, exec i s = .next t ∧ t.cq = offered (swept (afterFrame s s.cq)))))

/-- LONG_PRESS of a TOGGLE-DIM channel offers a STEP in its dim direction and of a SCENE channel a CAPTURE; REPEAT of a
TOGGLE-DIM channel past its long press offers another STEP and of an OCCUPY channel another OCCUPY, and restarts the
repeat count. The press age rises, and the claim queue takes the offer as a key's. That these rows do one channel's part
of a mark ahead of it is the model's choice (log entry 4). At a mark of any kind a channel that is not OFF samples its
pin: a second sample in a row against the debounced state is a press, which starts the press anew, or a release, which
turns the dim direction after a long TOGGLE-DIM press; a key held without a release ages. A press offers an OCCUPY or a
LEVEL, a release of a short press a TOGGLE or a RECALL, and a held key what its threshold or repeat gives, and nothing
else (R82, R164 to R173, R175). That a SCENE or LEVEL channel goes on counting repeats past its long press is read from
R166 (log entry 21). -/
def Obligations.HeldKeysGiveTheirRequests : Prop :=
  (∀ (k : Fin 4) (s : State), s.station.running = true →
    let ch := s.ku.channels[k]
    let c := s.conf.keys[k]
    let wrote := fun (n : KeyChannel) (req : Request) => ((s.setKu ⟨s.ku.channels.set k n⟩).setCq
      (s.cq.take (.key k) c.prio req).cq).setCp (s.cp.offerAll (s.cq.take (.key k) c.prio req).reports)
    ch.pressed = true →
      (c.func = .toggleDim → ch.long = false → min 255 (ch.age + 1) = s.conf.longPress → exec (.longPress k) s =
        .next (wrote { ch with age := min 255 (ch.age + 1), long := true }
          (.step c.target (if ch.down then -(c.param : Int) else c.param)))) ∧
      (c.func = .scene → ch.long = false → min 255 (ch.age + 1) = s.conf.longPress → exec (.longPress k) s =
        .next (wrote { ch with age := min 255 (ch.age + 1), long := true } (.capture c.target))) ∧
      (c.func = .toggleDim → ch.long = true → c.interval ≤ ch.repeats + 1 → exec (.repeatDue k) s =
        .next (wrote { ch with age := min 255 (ch.age + 1), repeats := 0 }
          (.step c.target (if ch.down then -(c.param : Int) else c.param)))) ∧
      (c.func = .occupy → c.interval ≤ ch.repeats + 1 → exec (.repeatDue k) s =
        .next (wrote { ch with age := min 255 (ch.age + 1), repeats := 0,
                               long := ch.long || decide (min 255 (ch.age + 1) = s.conf.longPress) }
          (.occupy c.target (Fin.ofNat 16 (c.param / 1024)) c.fade (c.param % 1024))))) ∧
  (∀ (i : Instr) (m : MarkObs) (s : State), takesMark i m s → m.wellFormed = true →
    ∃ t, exec i s = .next t ∧ ∀ k : Fin 4,
      let ch := s.ku.channels[k]
      let c := s.conf.keys[k]
      let now := m.keys.getLsbD k.val != c.activeLow
      let offer := offerAtMark m s k
      let counts := ch.long = true ∨ c.func = .occupy
      (c.func = .off → t.ku.channels[k] = ch ∧ offer = none) ∧
      (c.func ≠ .off →
        (ch.pressed = false → now = true → ch.previous = some true →
          t.ku.channels[k] = { ch with pressed := true, age := 0, long := false, repeats := 0 } ∧
          offer = (if c.func = .occupy then
              some (.occupy c.target (Fin.ofNat 16 (c.param / 1024)) c.fade (c.param % 1024))
            else if c.func = .level then some (.level c.target c.fade c.param) else none)) ∧
        (ch.pressed = true → now = false → ch.previous = some false →
          t.ku.channels[k] = { ch with
            pressed := false, down := if c.func = .toggleDim ∧ ch.long = true then !ch.down else ch.down } ∧
          offer = (if ch.long = true then none
            else if c.func = .toggleDim then some (.toggle c.target c.fade)
            else if c.func = .scene then some (.recall c.target c.fade) else none)) ∧
        (ch.pressed = false → (now = false ∨ ch.previous ≠ some true) →
          t.ku.channels[k] = { ch with previous := some now } ∧ offer = none) ∧
        (ch.pressed = true → (now = true ∨ ch.previous ≠ some false) →
          t.ku.channels[k] = { ch with
            previous := some now
            age := min 255 (ch.age + 1)
            long := ch.long || decide (min 255 (ch.age + 1) = s.conf.longPress)
            repeats := if counts then (if c.interval ≤ ch.repeats + 1 then 0 else ch.repeats + 1)
              else ch.repeats } ∧
          offer = (match c.func with
            | .toggleDim =>
              if ch.long = false ∧ min 255 (ch.age + 1) = s.conf.longPress ∨
                  ch.long = true ∧ c.interval ≤ ch.repeats + 1 then
                some (.step c.target (if ch.down then -(c.param : Int) else c.param)) else none
            | .scene => if ch.long = false ∧ min 255 (ch.age + 1) = s.conf.longPress then
                some (.capture c.target) else none
            | .occupy => if c.interval ≤ ch.repeats + 1 then
                some (.occupy c.target (Fin.ofNat 16 (c.param / 1024)) c.fade (c.param % 1024)) else none
            | _ => none))))

/-- The place R81 gives a new entry: behind the entries of equal or lower priority value, ahead of the rest. -/
def placed (e : Entry) (l : List Entry) : List Entry :=
  l.takeWhile (fun x => decide (x.prio ≤ e.prio)) ++ e :: l.dropWhile (fun x => decide (x.prio ≤ e.prio))

/-- An offer keeps the claim queue sound and its IN FLIGHT entry as it was. A CAPTURE, which is never coalesced, is
admitted in its place with age 0 and attempts 0 when fewer than 8 entries stand; at 8 it is turned away, which a key
counts as dropped and a companion is told (R80 to R83, R87, R98). -/
def Obligations.OffersKeepTheQueueSound : Prop :=
  ∀ (q : Cq) (src : Source) (prio : Nat), QueueOk q →
    (∀ req : Request, QueueOk (q.take src prio req).cq ∧
      (q.take src prio req).cq.entries.filter Entry.inFlight = q.entries.filter Entry.inFlight) ∧
    (∀ sc : Fin 16, q.entries.length < 8 →
      (q.take src prio (.capture sc)).taken = true ∧ (q.take src prio (.capture sc)).reports = [] ∧
      (q.take src prio (.capture sc)).cq.counts = q.counts ∧
      (q.take src prio (.capture sc)).cq.entries =
        placed ⟨src, prio, .capture sc, 0, 0, false, q.nextOrder⟩ q.entries) ∧
    (∀ sc : Fin 16, q.entries.length = 8 →
      (q.take src prio (.capture sc)).taken = false ∧ (q.take src prio (.capture sc)).reports = [] ∧
      (q.take src prio (.capture sc)).cq.entries = q.entries ∧
      (∀ tag, src = .companion tag → (q.take src prio (.capture sc)).cq = q) ∧
      (∀ k : Fin 4, src = .key k → (q.take src prio (.capture sc)).cq.counts[k].dropped =
        min 255 (q.counts[k].dropped + 1)))

/-- Coalescing: a STEP folds into the latest-admitted QUEUED STEP on its zone, held at ±511, or removes it at a sum of
0, and is MERGED; a TOGGLE removes the latest-admitted QUEUED TOGGLE on its zone and both are CANCELLED. A LEVEL and a
HALT remove every QUEUED LEVEL, HALT and TOGGLE on their zone, a RECALL every QUEUED RECALL and an OCCUPY every QUEUED
OCCUPY on its zone, as REPLACED in list order, and take their own place behind their priority, as a STEP or a TOGGLE
with no match does. Where nothing matches and 8 entries stand, the request is turned away, which a key counts as dropped
(R81 to R87, R97, R98). -/
def Obligations.RequestsCoalesceWithQueuedOnes : Prop :=
  ∀ (q : Cq) (src : Source) (prio : Nat) (z : Fin 16), q.entries.Pairwise (fun a b => a.order ≠ b.order) →
    (∀ (d d0 : Int) (old : Entry), old ∈ q.entries → old.inFlight = false → old.req = .step z d0 →
      (∀ e ∈ q.entries, e.inFlight = false → (∃ x, e.req = .step z x) → e.order ≤ old.order) →
      let k := q.take src prio (.step z d)
      let sum := max (-511) (min 511 (d0 + d))
      k.taken = true ∧
      (sum ≠ 0 → k.reports = outcomeReport src .merged ∧
        k.cq.entries = q.entries.map fun e => if e = old then { e with req := .step z sum } else e) ∧
      (sum = 0 → k.reports = outcomeReport old.source .cancelled ++ outcomeReport src .merged ∧
        k.cq.entries = q.entries.filter fun e => decide (e ≠ old))) ∧
    (∀ (c c0 : Fin 16) (old : Entry), old ∈ q.entries → old.inFlight = false → old.req = .toggle z c0 →
      (∀ e ∈ q.entries, e.inFlight = false → (∃ x, e.req = .toggle z x) → e.order ≤ old.order) →
      let k := q.take src prio (.toggle z c)
      k.taken = true ∧ k.reports = outcomeReport old.source .cancelled ++ outcomeReport src .cancelled ∧
        k.cq.entries = q.entries.filter fun e => decide (e ≠ old)) ∧
    (let replaces := fun (req : Request) (same : Request → Bool) =>
      let k := q.take src prio req
      let matches_ := fun e : Entry => !e.inFlight && same e.req
      let rest := q.entries.filter fun e => !matches_ e
      (rest.length < 8 → k.taken = true ∧ k.cq.counts = q.counts ∧
        k.cq.entries = placed ⟨src, prio, req, 0, 0, false, q.nextOrder⟩ rest ∧
        k.reports = (q.entries.filter matches_).flatMap fun e => outcomeReport e.source .replaced) ∧
      (q.entries.length = 8 → (∀ e ∈ q.entries, matches_ e = false) →
        k.taken = false ∧ k.reports = [] ∧ k.cq.entries = q.entries ∧
        (∀ tag, src = .companion tag → k.cq = q) ∧
        (∀ i : Fin 4, src = .key i → k.cq.counts[i].dropped = min 255 (q.counts[i].dropped + 1)))
    let level := fun r : Request => match r with
      | .level y _ _ | .halt y | .toggle y _ => y == z
      | _ => false
    let recalls := fun r : Request => match r with
      | .recall _ _ => true
      | _ => false
    let occupy := fun r : Request => match r with
      | .occupy y _ _ _ => y == z
      | _ => false
    (∀ (c : Fin 16) (l : Nat), replaces (.level z c l) level) ∧ replaces (.halt z) level ∧
    (∀ sc c : Fin 16, replaces (.recall sc c) recalls) ∧
    (∀ (k c : Fin 16) (v : Nat), replaces (.occupy z k c v) occupy) ∧
    (∀ d : Int, (∀ e ∈ q.entries, e.inFlight = false → ∀ x, e.req ≠ .step z x) →
      replaces (.step z d) fun _ => false) ∧
    (∀ c : Fin 16, (∀ e ∈ q.entries, e.inFlight = false → ∀ x, e.req ≠ .toggle z x) →
      replaces (.toggle z c) fun _ => false))

/-! ### The fields of a frame -/

/-- COUNT_FIELD read whole by a LISTENING or MUTED station: it adopts V without a slip, and a LISTENING station's count
pair becomes held exactly when V follows its last count, which then becomes V (R18, R19, R36). -/
def Obligations.ListenersAdoptTheCount : Prop :=
  ∀ (v : Byte) (order : OfferOrder) (s : State), s.lc.framed = true → (s.station = .listening ∨ s.station = .muted) →
    s.lc.nextCell = 3 → s.lc.countBits = [] →
    ∃ t, exec (.countField (bitsOfByte v) order) s = .next t ∧ t.lc.count = v ∧ t.lc.countRead = true ∧
      t.lc.nextCell = 11 ∧ t.lc.slips = s.lc.slips ∧ t.lc.driveFault = s.lc.driveFault ∧ t.lc.timer = s.lc.timer ∧
      (s.station = .muted → t.mu = s.mu) ∧
      (s.station = .listening → t.mu = { s.mu with pairHeld := t.mu.pairHeld, lastCount := some v } ∧
        (t.mu.pairHeld = true ↔ ∃ c, s.mu.lastCount = some c ∧ v = c + 1)) ∧
      t = ((s.setLc t.lc).setMu t.mu)

/-- COUNT_FIELD read whole by an ACTIVE station that sends its count: a V at or below it is adopted; below it, the
station has dropped out without a drive fault, takes a slip and offers COUNT SLIP with V (R18, R19, R193). -/
def Obligations.ActiveSendersAdoptALowerCount : Prop :=
  ∀ (v : Byte) (order : OfferOrder) (s : State), s.lc.framed = true → s.station = .active → s.lc.nextCell = 3 →
    s.lc.countBits = [] → s.lc.countSending = true → v.toNat ≤ s.lc.count.toNat →
    ∃ t, exec (.countField (bitsOfByte v) order) s = .next t ∧ t.lc.count = v ∧ t.lc.countRead = true ∧
      t.lc.nextCell = 11 ∧ t.lc.driveFault = s.lc.driveFault ∧
      (v = s.lc.count → t.lc.slips = s.lc.slips ∧ t = s.setLc t.lc) ∧
      (v ≠ s.lc.count → t.lc.slips = min 255 (s.lc.slips + 1) ∧
        t = (s.setLc t.lc).setCp (s.cp.offer (.line .countSlip v)))

/-- What VOID or ABANDONED makes of what the block `p` presented, with its OUTCOMEs: the generator's item ends, and the
entry IN FLIGHT is QUEUED again in its place with an attempt more, or at the fourth removed as FAILED, which a
companion's tag is told and a key's count takes (R93, R95, R97, R98, R143). -/
def takesVoid (s t : State) (p : Option Presenter) (outcome : List Report) : Prop :=
  (p = some .generator → t.cq = s.cq ∧ t.rg.presented = none ∧ outcome = []) ∧
  (∀ e : Entry, p = some .queue → s.cq.entries.find? Entry.inFlight = some e →
    (e.attempts < 3 → outcome = [] ∧ t.cq = { s.cq with entries := s.cq.entries.map fun x =>
      if x.inFlight then { x with inFlight := false, attempts := x.attempts + 1 } else x }) ∧
    (3 ≤ e.attempts → t.cq.entries = s.cq.entries.filter (fun x => !x.inFlight) ∧
      (∀ tag, e.source = .companion tag → t.cq.counts = s.cq.counts ∧ outcome = [.outcome tag .failed]) ∧
      (∀ k : Fin 4, e.source = .key k → outcome = [] ∧
        t.cq.counts[k].failed = min 255 (s.cq.counts[k].failed + 1))))

/-- Every live zone is marked unverified, its values kept (R120). -/
def marksZones (s t : State) : Prop :=
  ∀ z : Fin 16, t.ze.zones[z] = if s.conf.tracks z then
    { s.ze.zones[z] with unverified := true, age := 0, heard := false } else s.ze.zones[z]

/-- A drive fault that leaves the station a member, where the same reading adds `extra` points: the first of a frame
sets the indication, offers DRIVE FAULT and adds 8, and a later one adds nothing of its own; at 64 or more the station
is MUTED with STATE, its own record ABSENT and no item presented. `line` and `outcome` are what the reading offers
besides (R24, R43, R45, R51, R146). -/
def faultScores (order : OfferOrder) (s t : State) (extra : Nat) (line outcome : List Report) : Prop :=
  t.lc.driveFault = true ∧
  t.mu.score = min 255 (s.mu.score + (if s.lc.driveFault then 0 else 8) + extra) ∧
  t.station = (if t.mu.score < 64 then .active else .muted) ∧
  t.mu.members[s.number] = ⟨decide (t.mu.score < 64), 0, s.conf.trackedSet⟩ ∧
  (∀ i : Fin 32, i ≠ s.number → t.mu.members[i] = s.mu.members[i]) ∧
  (64 ≤ t.mu.score → t.rg.presented = none) ∧
  t.cp = s.cp.offerAll (interleave order (Offers.lists
    ⟨(if s.lc.driveFault then [] else [.line .driveFault s.lc.count]) ++ line, [],
      if t.mu.score < 64 then [] else [.state .muted .scoreHigh], [], [], outcome, []⟩))

/-- A drive fault that takes the station to LINE FAULT, after the same reading has added `extra` points and `muted` the
station with a STATE of its own or not: 8 is added first, and the entry offers one STATE with cause DRIVE FAULTS (R23,
R29, R43, R47, R59, R120). -/
def faultDisconnects (order : OfferOrder) (s t : State) (extra : Nat) (outcome : List Report) : Prop :=
  t.station = .lineFault ∧ t.mu.score = min 255 (s.mu.score + 8 + extra) ∧
  t.mu.members[s.number] = ⟨false, 0, s.conf.trackedSet⟩ ∧
  t.lc.driveFault = true ∧ t.lc.framed = false ∧ t.lc.drive = .released ∧ t.lc.contest = none ∧
  t.msu.frame = .cleared .noFrame ∧ t.msu.slot = none ∧ t.rg.presented = none ∧ marksZones s t ∧
  t.cp = s.cp.offerAll (interleave order (Offers.lists
    ⟨[.line .driveFault s.lc.count], [],
      (if 0 < extra ∧ 64 ≤ s.mu.score + extra then [.state .muted .scoreHigh] else []) ++
        [.state .lineFault .driveFaults], [], [], outcome, []⟩))

/-- A drive fault, in any cell in which the station pulls and reads FREE. It scores and mutes, or takes the station to
LINE FAULT when the frame before had one too, and the reading does the rest. In cell 10 the bit it raises makes a V
other than the count, and so a slip; the presence cell changes no record. In the claim field, its first cell too, the
contest ends as lost, and cell 19 gives an empty claim or a receiver. In a message cell it is a read-back mismatch too,
which adds 4, and in LINE FAULT the message is ABANDONED. In the veto cell the reading makes the result DISCARDED: at a
receiver with a fault found, which adds 1, and at an originator with a mismatch, whose message is VOID to the block that
presented it. In message and veto cells the operand says whether the fault is taken before the reading, which an entry
to LINE FAULT then leaves unread (R6, R18, R19, R21, R24, R29, R41 to R43, R45, R47, R61, R63, R65, R69 to R72, R75,
R91, R95, R143). That cell 10 gives the slip also where its drive fault has muted the station is read from R6 (log entry
11), that a command gives one cell's reading is log entry 6, and the order of fault and reading log entry 3. -/
def Obligations.DriveFaultsScoreAndDisconnect : Prop :=
  ∀ (order : OfferOrder) (s : State), MembersOk s → s.lc.framed = true → s.station = .active →
    s.pulls s.lc.nextCell = true →
    let k := s.lc.nextCell
    let f := s.msu.frame
    let gone := s.lc.driveFault = false ∧ s.mu.faultBefore = true
    let contends := if s.lc.claimOpen then s.lc.contest else if k = 12 then s.presents.map Prod.fst else none
    let discards := fun t : State => t.msu.frame.phase = .result ∧ t.msu.frame.result = some .discarded ∧
      t.msu.slot = none ∧ marksZones s t
    (s.lc.contest = none → s.originating = false →
      (3 ≤ k → k ≤ 10 → ∃ t, exec (.countField [true] order) s = .next t ∧ t.cq = s.cq ∧
        (gone → faultDisconnects order s t 0 []) ∧
        (¬gone → t.lc.nextCell = k + 1 ∧ t.lc.countBits = s.lc.countBits ++ [true] ∧ t.msu = s.msu ∧ t.ze = s.ze ∧
          (k < 10 → t.lc.count = s.lc.count ∧ t.lc.slips = s.lc.slips ∧ faultScores order s t 0 [] []) ∧
          (k = 10 → t.lc.count = BitVec.ofNat 8 (natOfBits t.lc.countBits) ∧ t.lc.countRead = true ∧
            t.lc.slips = min 255 (s.lc.slips + 1) ∧
            faultScores order s t 0 [.line .countSlip t.lc.count] []))) ∧
      (k = 11 → ∃ t, exec (.presenceCell true order) s = .next t ∧ t.cq = s.cq ∧
        (gone → faultDisconnects order s t 0 []) ∧
        (¬gone → t.lc.nextCell = 12 ∧ t.msu = s.msu ∧ t.ze = s.ze ∧ faultScores order s t 0 [] []))) ∧
    (∀ c : Contest, 12 ≤ k → k ≤ 19 → f.phase = .claim → contends = some c →
      ∃ t, exec (.claimField [true] order) s = .next t ∧
        (c.by_ = .queue →
          t.cq = { s.cq with entries := s.cq.entries.map fun e => { e with inFlight := false } }) ∧
        (c.by_ = .generator → t.cq = s.cq ∧ t.rg = { s.rg with presented := none }) ∧
        (gone → faultDisconnects order s t 0 []) ∧
        (¬gone → t.lc.contest = none ∧ t.lc.nextCell = k + 1 ∧ t.ze = s.ze ∧ faultScores order s t 0 [] [] ∧
          (k < 19 → t.msu.frame.phase = .claim) ∧
          (k = 19 →
            let v := byteOfBits (s.lc.claimBits ++ [true])
            (v = 0xFF#8 → t.msu.frame.phase = .noMessage ∧ t.lc.claimEmpty = true) ∧
            (v ≠ 0xFF#8 → t.msu.frame.phase = .message ∧ t.msu.frame.role = .receiver ∧ t.msu.frame.claim = v)))) ∧
    (∀ faultFirst : Bool, s.lc.contest = none → f.phase = .message →
      (f.role = .originator → k = 20 + f.cells.length → k ≤ 88 →
        ∃ t, exec (.message [true] faultFirst order) s = .next t ∧
          (gone → ∃ outcome, takesVoid s t f.presenter outcome ∧
            faultDisconnects order s t (if faultFirst then 0 else 4) outcome) ∧
          (¬gone → t.lc.nextCell = k + 1 ∧ t.msu.frame.mismatch = true ∧ t.msu.frame.veto = true ∧ t.cq = s.cq ∧
            t.ze = s.ze ∧ faultScores order s t 4 [] [])) ∧
      (k = 89 → f.role = .receiver → f.faultFound = true →
        ∃ t, exec (.vetoCell true faultFirst order) s = .next t ∧ t.cq = s.cq ∧
          t.msu.discardCount = (if gone ∧ faultFirst = true then s.msu.discardCount
            else min 65535 (s.msu.discardCount + 1)) ∧
          (gone → faultDisconnects order s t (if faultFirst then 0 else 1) []) ∧
          (¬gone → t.lc.nextCell = 90 ∧ discards t ∧ faultScores order s t 1 [] [])) ∧
      (k = 89 → f.role = .originator → f.faultFound = false → f.mismatch = true →
        ∃ t outcome, exec (.vetoCell true faultFirst order) s = .next t ∧ takesVoid s t f.presenter outcome ∧
          t.msu.discardCount = (if gone ∧ faultFirst = true then s.msu.discardCount
            else min 65535 (s.msu.discardCount + 1)) ∧
          (gone → faultDisconnects order s t 0 outcome) ∧
          (¬gone → t.lc.nextCell = 90 ∧ discards t ∧ faultScores order s t 0 [] outcome)))

/-- PRESENCE_CELL of a frame whose count field was read whole. For another station's index, the record changes as R52
lists: evidence makes it PRESENT, and the second FREE reading in a row ABSENT. For the own index, the own record stays;
a LISTENING station takes the own-cell mark and, as a MUTED one, offers DUPLICATE NUMBER for a PULLED reading (R20, R37,
R39, R52). -/
def Obligations.PresenceReadingsKeepTheMemberTable : Prop :=
  ∀ (r : Reading) (order : OfferOrder) (i : Fin 32) (s : State), s.readsFields = true → s.lc.nextCell = 11 →
    s.lc.countRead = true → i.val = s.lc.count.toNat % 32 →
    let m := s.mu.members[i]
    let base := s.setLc { s.lc with nextCell := 12 }
    let wrote := fun n : Member => base.setMu { s.mu with members := s.mu.members.set i n }
    let out := exec (.presenceCell r order) s
    (i ≠ s.number →
      (m.present = false → r = false →
        out = .next ((wrote { m with present := true, misses := 0 }).setCp (s.cp.offer (.member i true)))) ∧
      (m.present = false → r = true → out = .next base) ∧
      (m.present = true → r = false → out = .next (wrote { m with misses := 0 })) ∧
      (m.present = true → m.misses = 0 → r = true → out = .next (wrote { m with misses := 1 })) ∧
      (m.present = true → m.misses = 1 → r = true →
        out = .next ((wrote .absent).setCp (s.cp.offer (.member i false))))) ∧
    (i = s.number →
      (s.station = .listening → r = true → out = .next (base.setMu { s.mu with ownFree := true })) ∧
      (s.station = .listening → r = false → out = .next ((base.setMu { s.mu with ownFree := false }).setCp
        (s.cp.offer (.line .duplicateNumber s.lc.count)))) ∧
      (s.station = .muted → r = true → out = .next base) ∧
      (s.station = .muted → r = false → out = .next (base.setCp (s.cp.offer (.line .duplicateNumber s.lc.count)))) ∧
      (s.station = .active → r = false → out = .next base))

/-- A station presents nothing exactly when it is not ACTIVE, or its claim queue is empty and the settle gap is below
the restatement interval or the generator has no item. CLAIM_FIELD at such a station: eight FREE readings are an empty
claim, after which the frame carries no message; any other claim makes the station a RECEIVER of its message, with a
receive fault at once when its priority reads 7. The check register takes the eight bits (R9, R61, R67, R89, R140,
R141). -/
def Obligations.UncontendedClaimIsReceived : Prop :=
  (∀ s : State, s.presents = none ↔ s.station ≠ .active ∨
    s.cq.entries = [] ∧ (s.rg.gap < s.conf.restatement ∨ s.chosenItem = none)) ∧
  ∀ (v : Byte) (order : OfferOrder) (s : State), s.readsFields = true → s.lc.nextCell = 12 → s.lc.claimOpen = false →
    s.lc.contest = none → s.lc.claimBits = [] → s.msu.frame = .cleared .claim → s.presents = none →
    ∃ t, exec (.claimField (bitsOfByte v) order) s = .next t ∧ t = (s.setLc t.lc).setMsu t.msu ∧
      t.lc.nextCell = 20 ∧ t.lc.contest = none ∧ t.msu.slot = s.msu.slot ∧
      (v = 0xFF#8 → t.msu.frame.phase = .noMessage ∧ t.lc.claimEmpty = true) ∧
      (v ≠ 0xFF#8 → t.lc.claimEmpty = s.lc.claimEmpty ∧
        t.msu.frame = { FrameRecord.cleared .message with
          claim := v, check := checkCode (bitsOfByte v), faultFound := decide (v.toNat / 32 = 7) })

/-- CLAIM_FIELD at an ACTIVE station that reads back its own claim. The head of a claim queue that is not empty goes IN
FLIGHT, and the station originates the head's message, a CAPTURE with the generation after the table's; with the queue
empty and the settle gap reached, the generator's item is fixed and its statement originated. The stream is kind, data
and the check over claim, kind and data. The generator's item is the marked pair of the lowest tracked zone and then
scene, and without one the first rotation position from the cursor whose zone the station reports; its statement carries
the record or the entry as it stands. The station reports a tracked, verified zone while ACTIVE when no PRESENT record
of a lower number lists it. A claim byte has the priority in its top three bits and the origin in its low five, and the
stream the kind in four bits, the data, and the check register's eight places (R21, R54, R56, R58, R61, R62, R89, R90,
R131, R140 to R142, R210). -/
def Obligations.WonClaimOriginatesTheMessage : Prop :=
  (∀ (prio : Nat) (n : Fin 32), prio ≤ 7 → (claimByte prio n).toNat = 32 * prio + n.val) ∧
  (∀ claim : Byte, (claimOrigin claim).val = claim.toNat % 32) ∧
  (∀ (register : Byte) (m : Msg),
    let run := streamOf register m
    let data := 8 * dataLength m.kind
    run.length = 12 + data ∧ carriesField run 1 4 m.kind ∧ (run.drop 4).take data = m.bits ∧
      carriesField run (5 + data) (12 + data) ((run.take (4 + data)).foldl checkStep register).toNat) ∧
  (∀ (s : State) (z : Fin 16), s.reporter z = true ↔ s.station = .active ∧ s.conf.tracks z = true ∧
    s.ze.zones[z].unverified = false ∧
    ∀ n : Fin 32, n < s.number → s.mu.members[n].present = true → s.mu.members[n].zones.getLsbD z.val = false) ∧
  (∀ s : State,
    let marked := fun sc z : Fin 16 => s.conf.tracks z = true ∧ (s.ss.entry sc z).correction = true
    let zoneAt := fun k : Nat => Fin.ofNat 16 ((s.rg.cursor.val + k) % 288 / 18)
    (∀ sc z : Fin 16, marked sc z → (∀ sc2 z2 : Fin 16, marked sc2 z2 → z < z2 ∨ z = z2 ∧ sc ≤ sc2) →
      s.chosenItem = some (.correction sc z)) ∧
    ((∀ sc z : Fin 16, ¬marked sc z) →
      (∀ k < 288, s.reporter (zoneAt k) = true → (∀ j < k, s.reporter (zoneAt j) = false) →
        s.chosenItem = some (.rotation (Fin.ofNat 288 (s.rg.cursor.val + k)))) ∧
      ((∀ k < 288, s.reporter (zoneAt k) = false) → s.chosenItem = none))) ∧
  (∀ (s : State) (z sc : Fin 16) (p : Fin 288),
    let r := s.ze.zones[z]
    let e := s.ss.entry sc z
    (p.val = 18 * z.val → s.itemMsg (.rotation p) = .zoneStatement z r.target r.current r.fade r.lastOn) ∧
    (p.val = 18 * z.val + 1 → (∀ h, r.hold = some h →
        s.itemMsg (.rotation p) = .holdStatement z true h.remainder h.vacant h.fade) ∧
      (r.hold = none → s.itemMsg (.rotation p) = .holdStatement z false 0 0 0)) ∧
    (p.val = 18 * z.val + 2 + sc.val →
      s.itemMsg (.rotation p) = .sceneStatement sc z e.gen e.level.isSome (e.level.getD 0)) ∧
    s.itemMsg (.correction sc z) = .sceneStatement sc z e.gen e.level.isSome (e.level.getD 0)) ∧
  ∀ (order : OfferOrder) (s : State), s.readsFields = true → s.station = .active → s.lc.nextCell = 12 →
    s.lc.claimOpen = false → s.lc.contest = none → s.lc.claimBits = [] → s.msu.frame = .cleared .claim →
    (∀ (e : Entry) (es : List Entry), s.cq.entries = e :: es → (∀ x ∈ s.cq.entries, x.inFlight = false) →
      e.prio ≤ 6 →
      ∃ t, exec (.claimField (bitsOfByte (claimByte e.prio s.number)) order) s = .next t ∧
        t = ((s.setLc t.lc).setMsu t.msu).setCq { s.cq with entries := { e with inFlight := true } :: es } ∧
        t.lc.nextCell = 20 ∧ t.lc.contest = none ∧ t.msu.frame.phase = .message ∧
        t.msu.frame.role = .originator ∧ t.msu.frame.claim = claimByte e.prio s.number ∧
        t.msu.frame.presenter = some .queue ∧ t.msu.frame.cells = [] ∧
        t.msu.frame.stream = streamOf (checkCode (bitsOfByte (claimByte e.prio s.number)))
          (e.req.toMsg fun sc => s.ss.gens[sc] + 1)) ∧
    (∀ i : Item, s.cq.entries = [] → s.conf.restatement ≤ s.rg.gap → s.chosenItem = some i →
      ∃ t, exec (.claimField (bitsOfByte (claimByte 6 s.number)) order) s = .next t ∧
        t = ((s.setLc t.lc).setMsu t.msu).setRg { s.rg with presented := some i } ∧
        t.lc.nextCell = 20 ∧ t.lc.contest = none ∧ t.msu.frame.phase = .message ∧
        t.msu.frame.role = .originator ∧ t.msu.frame.presenter = some .generator ∧
        t.msu.frame.stream = streamOf (checkCode (bitsOfByte (claimByte 6 s.number))) (s.itemMsg i))

/-- CLAIM_FIELD at an ACTIVE station whose queue or generator contends with a claim above the one that reads on the
line: the contest is lost without an outcome, the queue's entry is QUEUED in its place with its attempts unchanged, the
generator's item is none with its cursor, gap and last own settle as they were, and the station receives the winner's
message (R21, R61, R91, R140, R143). -/
def Obligations.LostClaimLeavesTheQueueAsItWas : Prop :=
  ∀ (v : Byte) (order : OfferOrder) (s : State), s.readsFields = true →
    s.station = .active → s.lc.nextCell = 12 → s.lc.claimOpen = false → s.lc.contest = none → s.lc.claimBits = [] →
    s.msu.frame = .cleared .claim →
    let receives := fun t : State => t.lc.nextCell = 20 ∧ t.lc.contest = none ∧ t.lc.driveFault = s.lc.driveFault ∧
      t.msu.slot = s.msu.slot ∧
      t.msu.frame = { FrameRecord.cleared .message with claim := v, check := checkCode (bitsOfByte v) }
    (∀ (e : Entry) (es : List Entry), s.cq.entries = e :: es → (∀ x ∈ s.cq.entries, x.inFlight = false) →
      e.prio ≤ 6 → v.toNat < (claimByte e.prio s.number).toNat →
      ∃ t, exec (.claimField (bitsOfByte v) order) s = .next t ∧ t = (s.setLc t.lc).setMsu t.msu ∧ receives t) ∧
    (∀ i : Item, s.cq.entries = [] → s.conf.restatement ≤ s.rg.gap → s.chosenItem = some i →
      v.toNat < (claimByte 6 s.number).toNat →
      ∃ t, exec (.claimField (bitsOfByte v) order) s = .next t ∧
        t = ((s.setLc t.lc).setMsu t.msu).setRg { s.rg with presented := none } ∧ receives t)

/-- The kind of a message, and the fields of its data run: first and last position, counted from 1, and the number that
stands there; spare bits are 0, a flag is 1 for PRESENT, and a step is a 10-bit two's-complement number (R56, R210). -/
def dataLayout : Msg → Nat × List (Nat × Nat × Nat)
  | .level z c l => (0, [(1, 4, z.val), (5, 8, c.val), (9, 18, l), (19, 24, 0)])
  | .step z d => (1, [(1, 4, z.val), (5, 14, (d % 1024).toNat), (15, 16, 0)])
  | .toggle z c => (2, [(1, 4, z.val), (5, 8, c.val)])
  | .halt z => (3, [(1, 4, z.val), (5, 8, 0)])
  | .recall sc c => (4, [(1, 4, sc.val), (5, 8, c.val)])
  | .capture sc g => (5, [(1, 4, sc.val), (5, 8, 0), (9, 16, g.toNat)])
  | .occupy z k c v => (6, [(1, 4, z.val), (5, 8, k.val), (9, 12, c.val), (13, 22, v), (23, 24, 0)])
  | .zoneStatement z t c r l =>
    (7, [(1, 4, z.val), (5, 14, t), (15, 24, c), (25, 40, r), (41, 50, l), (51, 56, 0)])
  | .holdStatement z p r v c =>
    (8, [(1, 4, z.val), (5, 5, p.toNat), (6, 21, r), (22, 31, v), (32, 35, c.val), (36, 40, 0)])
  | .sceneStatement sc z g p l =>
    (9, [(1, 4, sc.val), (5, 8, z.val), (9, 16, g.toNat), (17, 17, p.toNat), (18, 27, l), (28, 32, 0)])

/-- MESSAGE then VETO_CELL at a receiver: a message in range, encoded by R210 with its check, read with FREE pad cells
and a FREE veto cell, settles as exactly that message, whatever the station state, with no fault and no report; its data
decodes to it and is well formed. One cell at a receiver joins the record, up to the last data cell enters the check
register, and sets fault found where it ends a kind of 10 or more, malformed data, or check cells that differ from the
register, or is a PULLED pad cell. Such a pad cell is a DISTURBANCE too, once a frame, and no other cell reports. Each
kind has its data length and its fields at their positions, most significant bit first, with spare bits 0, and data is
malformed unless it is that of a message in range (R26, R56 to R58, R66, R67, R70, R79, R210). That MESSAGE judges the
pad cell's disturbance as well as CELL_START is the model's choice (log entry 10). -/
def Obligations.ReceivedMessageSettlesAsSent : Prop :=
  (∀ (m : Msg) (faultFirst : Bool) (order : OfferOrder) (s : State), m.InRange → s.readsFields = true →
    s.lc.nextCell = 20 → s.msu.frame.phase = .message → s.msu.frame.role = .receiver → s.msu.frame.cells = [] →
    s.msu.frame.faultFound = false → s.msu.frame.mismatch = false → s.msu.frame.veto = false →
    let bits := streamOf s.msu.frame.check m
    ∃ t, execAll [.message (bits ++ List.replicate (69 - bits.length) true) faultFirst order,
        .vetoCell true faultFirst order] s = .next t ∧
      t = (s.setLc { s.lc with nextCell := 90 }).setMsu t.msu ∧
      t.msu.slot = some ⟨s.msu.frame.claim, m.kind, m.bits, s.lc.count, false⟩ ∧
      t.msu.frame.phase = .result ∧ t.msu.frame.result = some .settled ∧ t.msu.frame.faultFound = false ∧
      t.msu.settledCount = min 65535 (s.msu.settledCount + 1) ∧
      readMsg m.kind m.bits = some m ∧ malformed m.kind m.bits = false) ∧
  (∀ (r faultFirst : Bool) (order : OfferOrder) (s : State), s.readsFields = true → s.msu.frame.phase = .message →
    s.msu.frame.role = .receiver → s.lc.nextCell = 20 + s.msu.frame.cells.length → s.lc.nextCell ≤ 88 →
    let f := s.msu.frame
    let cells := f.cells ++ [r]
    let j := cells.length
    let kind := natOfBits (cells.take 4)
    let n := dataLength kind
    let pulledPad := 12 + 8 * n < j ∧ r = false
    let fault := j = 4 ∧ 10 ≤ kind ∨ 4 < j ∧ j = 4 + 8 * n ∧ malformed kind (cells.drop 4) = true ∨
      j = 12 + 8 * n ∧ cells.drop (4 + 8 * n) ≠ bitsOfByte f.check ∨ pulledPad
    let read := { s.lc with nextCell := s.lc.nextCell + 1 }
    ∃ t, exec (.message [r] faultFirst order) s = .next t ∧ t = ((s.setLc t.lc).setMsu t.msu).setCp t.cp ∧
      t.msu = { s.msu with frame := { f with
        cells := cells
        check := if j ≤ 4 ∨ j ≤ 4 + 8 * n then checkStep f.check r else f.check
        faultFound := t.msu.frame.faultFound } } ∧
      (t.msu.frame.faultFound = true ↔ f.faultFound = true ∨ fault) ∧
      (pulledPad → t.lc = { read with disturbance := true } ∧
        t.cp = (if s.lc.disturbance then s.cp else s.cp.offer (.line .disturbance s.lc.count))) ∧
      (¬pulledPad → t.lc = read ∧ t.cp = s.cp)) ∧
  (∀ m : Msg, m.kind = (dataLayout m).1 ∧ m.bits.length = 8 * dataLength m.kind ∧
    ∀ x ∈ (dataLayout m).2, carriesField m.bits x.1 x.2.1 x.2.2) ∧
  (∀ kind : Nat, dataLength kind = [3, 2, 1, 1, 1, 2, 3, 7, 5, 4].getD kind 0) ∧
  (∀ (kind : Nat) (l : List Bool), kind ≤ 9 → l.length = 8 * dataLength kind →
    (malformed kind l = false ↔ ∃ m : Msg, m.InRange ∧ m.kind = kind ∧ m.bits = l)) ∧
  (∀ (l : List Bool) (bit : Bool), natOfBits [] = 0 ∧ natOfBits (l ++ [bit]) = 2 * natOfBits l + bit.toNat) ∧
  (∀ l : List Bool, l.length = 8 → bitsOfByte (byteOfBits l) = l) ∧
  ∀ (n : Nat) (l : List Bool), l.length = 8 * n → bitsOfBytes (bytesOfBits n l) = l

/-- MESSAGE at an originator. A cell that reads the stream's bit, or FREE in the pad cells after the stream, only joins
the record; so does any cell after a mismatch, which is compared no more, scores and reports nothing and is pulled by no
stream. An ACTIVE originator that sent 1, or nothing, and reads PULLED has a read-back mismatch, which decides the veto
and adds 4 at once, muting the station at 64, with no item presented from then on (R22, R41, R45, R63, R146). That the
record keeps the stream and goes on recording its bits after the withdrawal is log entry 29. -/
def Obligations.MismatchWithdrawsAndScores : Prop :=
  (∀ (r faultFirst : Bool) (order : OfferOrder) (s : State), s.readsFields = true → s.msu.frame.phase = .message →
    s.msu.frame.role = .originator → s.lc.nextCell = 20 + s.msu.frame.cells.length → s.lc.nextCell ≤ 88 →
    let f := s.msu.frame
    let sent := f.stream[f.cells.length]?
    let recorded := fun bit : Bool => (s.setLc { s.lc with nextCell := s.lc.nextCell + 1 }).setMsu
      { s.msu with frame := { f with cells := f.cells ++ [bit] } }
    (f.mismatch = false → (sent = some r ∨ sent = none ∧ r = true) →
      exec (.message [r] faultFirst order) s = .next (recorded r)) ∧
    (f.mismatch = true → ∃ bit, exec (.message [r] faultFirst order) s = .next (recorded bit) ∧
      ∀ k, 20 ≤ k → k ≤ 88 → (recorded bit).pulls k = false)) ∧
  ∀ (faultFirst : Bool) (order : OfferOrder) (s : State), s.readsFields = true → s.station = .active →
    s.msu.frame.phase = .message → s.msu.frame.role = .originator → s.msu.frame.mismatch = false →
    s.lc.nextCell = 20 + s.msu.frame.cells.length → s.lc.nextCell ≤ 88 →
    s.msu.frame.stream[s.msu.frame.cells.length]? ≠ some false →
    ∃ t, exec (.message [false] faultFirst order) s = .next t ∧ t.msu.frame.mismatch = true ∧
      t.msu.frame.veto = true ∧ t.msu.frame.stream = s.msu.frame.stream ∧ t.lc.nextCell = s.lc.nextCell + 1 ∧
      t.lc.driveFault = s.lc.driveFault ∧ t.mu.score = min 255 (s.mu.score + 4) ∧ t.mu.raised = true ∧
      t.cq = s.cq ∧ t.ze = s.ze ∧
      (∀ k, 20 ≤ k → k ≤ 88 → t.pulls k = false) ∧
      (t.mu.score < 64 → t.station = .active ∧ t.rg = s.rg ∧ t.cp = s.cp) ∧
      (64 ≤ t.mu.score → t.station = .muted ∧ t.rg = { s.rg with presented := none } ∧
        t.cp = s.cp.offer (.state .muted .scoreHigh))

/-- VETO_CELL at a receiver that found no fault: FREE settles the message into the slot, PULLED voids it, and neither
touches the score or the zones. At one that found a fault: PULLED is VOID and FREE, where the station cannot veto, is
DISCARDED with every live zone marked; the slot stays empty, and the score rises by 1 except in LISTENING, muting an
ACTIVE station at 64 with its STATE, the only report, and with no item presented from then on (R42, R45, R69 to R71,
R79, R120, R146). -/
def Obligations.VetoCellGivesTheResult : Prop :=
  ∀ (r faultFirst : Bool) (order : OfferOrder) (s : State), s.readsFields = true → s.lc.nextCell = 89 →
    s.msu.frame.phase = .message → s.msu.frame.role = .receiver → s.msu.frame.mismatch = false →
    s.msu.frame.veto = false →
    (s.msu.frame.faultFound = false →
      ∃ t, exec (.vetoCell r faultFirst order) s = .next t ∧
        t = (s.setLc { s.lc with nextCell := 90 }).setMsu t.msu ∧ t.msu.frame.phase = .result ∧
        (r = true → t.msu.frame.result = some .settled ∧
          t.msu.slot = some ⟨s.msu.frame.claim, s.msu.frame.kind, s.msu.frame.data, s.lc.count, false⟩ ∧
          t.msu.settledCount = min 65535 (s.msu.settledCount + 1)) ∧
        (r = false → t.msu.frame.result = some .void ∧ t.msu.slot = none ∧
          t.msu.voidCount = min 65535 (s.msu.voidCount + 1))) ∧
    (s.msu.frame.faultFound = true → (s.station = .active → r = false) →
      ∃ t, exec (.vetoCell r faultFirst order) s = .next t ∧ t.msu.frame.phase = .result ∧ t.msu.slot = none ∧
        t.mu.score = (if s.station = .listening then s.mu.score else min 255 (s.mu.score + 1)) ∧
        t.station = (if s.station = .active ∧ 64 ≤ t.mu.score then .muted else s.station) ∧
        (∀ i : Fin 32, i ≠ s.number → t.mu.members[i] = s.mu.members[i]) ∧
        t.cq = s.cq ∧ t.ss = s.ss ∧ t.lc = { s.lc with nextCell := 90 } ∧
        t.rg = (if s.station = .active ∧ 64 ≤ t.mu.score then { s.rg with presented := none } else s.rg) ∧
        t.cp = (if s.station = .active ∧ 64 ≤ t.mu.score then s.cp.offer (.state .muted .scoreHigh) else s.cp) ∧
        (r = false → t.msu.frame.result = some .void ∧ t.msu.voidCount = min 65535 (s.msu.voidCount + 1) ∧
          t.ze = s.ze) ∧
        (r = true → t.msu.frame.result = some .discarded ∧
          t.msu.discardCount = min 65535 (s.msu.discardCount + 1) ∧
          ∀ z : Fin 16, t.ze.zones[z] = if s.conf.tracks z then
            { s.ze.zones[z] with unverified := true, age := 0, heard := false } else s.ze.zones[z]))

/-- VETO_CELL at the originator of a message, ACTIVE or MUTED. SETTLED, by a FREE reading without a mismatch, removes
the claim queue's entry as SENT and sets the last own settle and the gap. A rotation statement moves the cursor past its
position, a correction statement leaves it, and either ends as the presented item; the settle of a SCENE STATEMENT
clears its pair's correction mark. A PULLED reading is VOID, and a FREE one at a MUTED station with a mismatch DISCARDED
with every live zone marked; both are VOID to the block that presented, which counts an attempt for the entry or drops
the item. VOID adds 4 to the score, unless the mismatch has added them, and mutes an ACTIVE station at 64 (R41, R45,
R65, R70 to R72, R92, R93, R97, R98, R136, R139, R143, R146). -/
def Obligations.OriginatorsLearnTheirOutcome : Prop :=
  (∀ (faultFirst : Bool) (order : OfferOrder) (s : State), s.readsFields = true → s.station.ticking = true →
    s.lc.nextCell = 89 → s.msu.frame.phase = .message → s.msu.frame.role = .originator →
    s.msu.frame.faultFound = false → s.msu.frame.mismatch = false → s.msu.frame.veto = false →
    ∃ t, exec (.vetoCell true faultFirst order) s = .next t ∧ t.mu = s.mu ∧ t.ze = s.ze ∧
      t.msu.frame.result = some .settled ∧ t.msu.settledCount = min 65535 (s.msu.settledCount + 1) ∧
      t.msu.slot = some ⟨s.msu.frame.claim, s.msu.frame.kind, s.msu.frame.data, s.lc.count, true⟩ ∧
      (∀ e : Entry, s.msu.frame.presenter = some .queue → s.cq.entries.find? Entry.inFlight = some e →
        t.cq.entries = s.cq.entries.filter (fun x => !x.inFlight) ∧ t.ss = s.ss ∧
        t.rg = { s.rg with lastOwn := some s.lc.count, gap := 0 } ∧
        (∀ tag, e.source = .companion tag → t.cq.counts = s.cq.counts ∧ t.cp = s.cp.offer (.outcome tag .sent)) ∧
        (∀ k : Fin 4, e.source = .key k → t.cp = s.cp ∧
          t.cq.counts[k].sent = min 255 (s.cq.counts[k].sent + 1))) ∧
      (s.msu.frame.presenter = some .generator → t.cq = s.cq ∧ t.cp = s.cp ∧
        let cleared := fun sc z : Fin 16 => t.ss.gens = s.ss.gens ∧ ∀ sc2 z2 : Fin 16, t.ss.entry sc2 z2 =
          if sc2 = sc ∧ z2 = z then { s.ss.entry sc z with correction := false } else s.ss.entry sc2 z2
        (∀ p : Fin 288, s.rg.presented = some (.rotation p) →
          t.rg = ⟨Fin.ofNat 288 (p.val + 1), 0, some s.lc.count, none⟩ ∧ (p.val % 18 < 2 → t.ss = s.ss) ∧
          ∀ sc z : Fin 16, p.val = 18 * z.val + 2 + sc.val → cleared sc z) ∧
        (∀ sc z : Fin 16, s.rg.presented = some (.correction sc z) →
          t.rg = ⟨s.rg.cursor, 0, some s.lc.count, none⟩ ∧ cleared sc z))) ∧
  (∀ (r faultFirst : Bool) (order : OfferOrder) (s : State), MembersOk s → s.readsFields = true →
    s.station.ticking = true → s.lc.nextCell = 89 → s.msu.frame.phase = .message →
    s.msu.frame.role = .originator → s.msu.frame.faultFound = false →
    (r = false ∨ s.station = .muted ∧ s.msu.frame.mismatch = true) →
    ∃ t outcome, exec (.vetoCell r faultFirst order) s = .next t ∧ t.msu.slot = none ∧ t.ss = s.ss ∧
      takesVoid s t s.msu.frame.presenter outcome ∧
      t.mu.score = min 255 (s.mu.score + if s.msu.frame.mismatch then 0 else 4) ∧
      t.station = (if s.station = .active ∧ t.mu.score < 64 then .active else .muted) ∧
      t.rg = (if s.msu.frame.presenter = some .generator ∨ t.station ≠ s.station then
        { s.rg with presented := none } else s.rg) ∧
      t.cp = s.cp.offerAll (interleave order (Offers.lists
        ⟨[], [], if t.station ≠ s.station then [.state .muted .scoreHigh] else [], [], [], outcome, []⟩)) ∧
      (r = false → t.msu.frame.result = some .void ∧ t.msu.voidCount = min 65535 (s.msu.voidCount + 1) ∧
        t.ze = s.ze) ∧
      (r = true → t.msu.frame.result = some .discarded ∧
        t.msu.discardCount = min 65535 (s.msu.discardCount + 1) ∧ marksZones s t))

/-! ### The outputs -/

/-- The frame position counts in units of 1/32736 of a cell (log entry 7). OUTPUT_PERIOD_START and PULSE_EDGE bring it
to the start of a period or to an edge that lies between it and the next cell start, and leave it otherwise; that it
moves by these commands alone between cell starts is the model's choice (log entries 2, 16). Cell k begins at k − 7/8.
The edges of a level from 1 to 1022 stand, in every period, at the phase offset, at the end of the asserted length, and
with a wrap at the period's start; levels 0 and 1023 have none. A channel is asserted from
its phase offset for the level's share of the period, wrapping round the period's end: at level 0 never, at 1023 always.
Its pin is high-impedance before a configuration and otherwise stands as its condition and polarity give (R148, R151 to
R153). -/
def Obligations.PulseTrainsFollowTheFramePosition : Prop :=
  (∀ k : Nat, 1 ≤ k → 8 * cellPosition k = 32736 * (8 * k - 7)) ∧
  (∀ (ch : Fin 4) (n b : Nat) (s : State), s.station.running = true → s.ou.basis = some b →
    let start := n * (b * (32736 / s.conf.outputs[ch].divider))
    (s.ou.position ≤ start → start ≤ cellPosition (s.ou.cells + 1) →
      exec (.outputPeriodStart ch n) s = .next (s.setOu { s.ou with position := start })) ∧
    (¬(s.ou.position ≤ start ∧ start ≤ cellPosition (s.ou.cells + 1)) →
      exec (.outputPeriodStart ch n) s = .next s)) ∧
  (∀ (ch : Fin 4) (pos b : Nat) (s : State), s.station.running = true → s.ou.basis = some b →
    let o := s.conf.outputs[ch]
    let level := s.ou.latched[ch]
    let period := b * (32736 / o.divider)
    let offset := o.phase.val * (period / 4)
    let fin := offset + period * level / 1023
    let x := pos % period
    let edge := 0 < level ∧ level < 1023 ∧ (x = offset ∨ x = fin % period ∨ period < fin ∧ x = 0)
    (edge → s.ou.position ≤ pos → pos ≤ cellPosition (s.ou.cells + 1) →
      exec (.pulseEdge ch pos) s = .next (s.setOu { s.ou with position := pos })) ∧
    ((¬edge ∨
        ¬(s.ou.position ≤ pos ∧ pos ≤ cellPosition (s.ou.cells + 1))) →
      exec (.pulseEdge ch pos) s = .next s)) ∧
  (∀ (o : OutputSettings) (b level position length : Nat), 0 < b → level ≤ 1023 →
    (o.divider = 1 ∨ o.divider = 2 ∨ o.divider = 4 ∨ o.divider = 8) →
    let period := b * (32736 / o.divider)
    let offset := o.phase.val * (period / 4)
    let x := position % period
    length * 1023 = period * level →
    (o.asserted b level position = true ↔
      offset ≤ x ∧ x < offset + length ∨ x + period < offset + length) ∧
    (level = 0 → o.asserted b level position = false) ∧ (level = 1023 → o.asserted b level position = true)) ∧
  (∀ (ch : Fin 4) (s : State),
    (s.station.unready = true → s.dimPin ch = .highImpedance) ∧
    (∀ b, s.station.unready = false → s.ou.basis = some b →
      let o := s.conf.outputs[ch]
      s.dimPin ch = if o.asserted b s.ou.latched[ch] s.ou.position = o.activeLow then .low else .high))

/-! ### Invariants that every step keeps -/

/-- A station pulls the group line only while ACTIVE or MUTED: every step from a state of which that holds leaves it so
(R7). -/
def Obligations.OnlyMembersPullTheLine : Prop :=
  ∀ s t : State, DriveOk s → step s = .next t → DriveOk t

/-- Every step keeps the report queue at 16 reports at most, the lost count within a byte and the transmitter busy while
something is available; and in their ranges the slip and silence counts, the clear stretch, the settled, void and
discard counts, the settle gap, the claim queue's ages and key counts, the failsafe count, and the key channels' press
ages and repeat counts (R19, R27, R79, R80, R98, R123, R138, R163, R194, R195). -/
def Obligations.StepsKeepPortAndCounts : Prop :=
  (∀ s t : State, PortOk s.cp → step s = .next t → PortOk t.cp) ∧
  (∀ s t : State, CountsOk s → step s = .next t → CountsOk t)

/-- Every step keeps the fault score in 0..255 and below 64 in ACTIVE, the own record as the station state gives it, and
ABSENT records of other stations empty (R40, R50, R51). -/
def Obligations.StepsKeepMembership : Prop :=
  ∀ s t : State, MembersOk s → step s = .next t → MembersOk t

/-- Every step keeps the claim queue at 8 entries at most in priority order, attempts in 0..3, each entry of an
admission of its own, and at most one entry IN FLIGHT, which then contends or is being sent (R80, R81, R83, R89 to R95).
-/
def Obligations.StepsKeepTheClaimQueue : Prop :=
  ∀ s t : State, FlightOk s → step s = .next t → FlightOk t

/-- Every step whose settled slot holds no malformed message keeps every zone record sound: levels in range, last-on
above 0, a finished fade at its target, and no hold at target 0 (R103, R104, R113). -/
def Obligations.StepsKeepZonesSound : Prop :=
  ∀ s t : State, ZonesOk s → SlotOk s → step s = .next t → ZonesOk t

/-- Only well-formed messages settle: every step from a state with sound zones keeps the settled slot, the frame record,
the waiting requests and the key settings such that no malformed message ever reaches the slot, and the slot empty in a
station that reads no fields, as LINE FAULT is (R57, R59, R62, R66, R75, R80, R209). -/
def Obligations.StepsKeepMessagesWellFormed : Prop :=
  ∀ s t : State, ZonesOk s → MessagesOk s → step s = .next t → MessagesOk t

/-- Every step keeps each load state in agreement with its station state, the block buffer empty but in READING and
short of 39 bytes there, and a published configuration in range; and in HELD the configuration stays, but for a cold
reset (R198, R200, R201, R206, R207). -/
def Obligations.StepsKeepTheConfiguration : Prop :=
  ∀ s t : State, LoadOk s → step s = .next t →
    LoadOk t ∧ (s.cl.load = .held → s.pending.head? ≠ some .coldReset → t.cl = s.cl)

end
end

