-- ==== Sys2Proof/Laws/Bits.lean ====
section
/-! SUPPORT. Bit runs: lengths, and that a number carried in enough bits is read back. -/

namespace Sys2Proof.Machine

@[simp] theorem bitsOfNat_length (w n : Nat) : (bitsOfNat w n).length = w := by
  induction w with
  | zero => rfl
  | succ w ih => simp [bitsOfNat, ih]

@[simp] theorem bitsOfByte_length (b : Byte) : (bitsOfByte b).length = 8 := bitsOfNat_length 8 _

theorem natOfBits_foldl (l : List Bool) (a : Nat) :
    l.foldl (fun n b => 2 * n + b.toNat) a = a * 2 ^ l.length + natOfBits l := by
  induction l generalizing a with
  | nil => simp [natOfBits]
  | cons b l ih =>
    have h : natOfBits (b :: l) = b.toNat * 2 ^ l.length + natOfBits l := by
      rw [natOfBits, List.foldl_cons, ih]
      simp
    rw [List.foldl_cons, ih, h, List.length_cons, pow_succ]
    ring

theorem natOfBits_cons (b : Bool) (l : List Bool) : natOfBits (b :: l) = b.toNat * 2 ^ l.length + natOfBits l := by
  rw [natOfBits, List.foldl_cons, natOfBits_foldl]
  simp

theorem natOfBits_lt (l : List Bool) : natOfBits l < 2 ^ l.length := by
  induction l with
  | nil => simp [natOfBits]
  | cons b l ih =>
    rw [natOfBits_cons, List.length_cons, pow_succ]
    cases b <;> simp <;> omega

/-- What `w` bits carry is the number's low `w` bits. -/
@[simp] theorem natOfBits_bitsOfNat (w n : Nat) : natOfBits (bitsOfNat w n) = n % 2 ^ w := by
  induction w with
  | zero => simp [bitsOfNat, natOfBits, Nat.mod_one]
  | succ w ih =>
    rw [bitsOfNat, natOfBits_cons, bitsOfNat_length, ih, Nat.mod_pow_succ, Nat.testBit_eq_decide_div_mod_eq]
    have h2 := Nat.mod_lt (n / 2 ^ w) (by decide : 0 < 2)
    rcases (by omega : n / 2 ^ w % 2 = 0 ∨ n / 2 ^ w % 2 = 1) with h | h <;> simp [h, Nat.add_comm]

/-- The bits of a run are read back as the run. -/
theorem bitsOfNat_natOfBits (l : List Bool) : bitsOfNat l.length (natOfBits l) = l := by
  have aux : ∀ (l : List Bool) (k : Nat), bitsOfNat l.length (k * 2 ^ l.length + natOfBits l) = l := by
    intro l
    induction l with
    | nil => intro k; rfl
    | cons b l ih =>
      intro k
      have hlt := natOfBits_lt l
      rw [List.length_cons, bitsOfNat, natOfBits_cons]
      have e : k * 2 ^ (l.length + 1) + (b.toNat * 2 ^ l.length + natOfBits l) =
          (2 * k + b.toNat) * 2 ^ l.length + natOfBits l := by rw [pow_succ]; ring
      rw [e, ih]
      congr 1
      rw [Nat.testBit_eq_decide_div_mod_eq, Nat.add_comm, Nat.add_mul_div_right _ _ (Nat.two_pow_pos _),
        Nat.div_eq_of_lt hlt]
      cases b <;> simp
  simpa using aux l 0

/-- A byte is read back from its bits. -/
@[simp] theorem byteOfBits_bitsOfByte (b : Byte) (l : List Bool) : byteOfBits (bitsOfByte b ++ l) = b := by
  rw [byteOfBits, List.take_append_of_le_length (by simp), List.take_of_length_le (by simp), bitsOfByte,
    natOfBits_bitsOfNat]
  apply BitVec.eq_of_toNat_eq
  simp [Nat.mod_eq_of_lt b.isLt]

/-- Bytes are read back from their run of bits. -/
@[simp] theorem bytesOfBits_bitsOfBytes (l : List Byte) : bytesOfBits l.length (bitsOfBytes l) = l := by
  induction l with
  | nil => rfl
  | cons b l ih =>
    rw [List.length_cons, bytesOfBits, bitsOfBytes, List.flatMap_cons, byteOfBits_bitsOfByte,
      List.drop_append_of_le_length (by simp), List.drop_of_length_le (by simp)]
    exact congrArg (b :: ·) (by simpa [bitsOfBytes] using ih)

/-- The check register over two runs is the one after the other. -/
theorem checkFrom_append (r : Byte) (l m : List Bool) : checkFrom r (l ++ m) = checkFrom (checkFrom r l) m :=
  List.foldl_append

/-- A message's data run is as long as its kind says. -/
@[simp] theorem Msg.bits_length (m : Msg) : m.bits.length = 8 * dataLength m.kind := by
  cases m <;> simp [Msg.bits, Msg.kind, dataLength]

/-- A message's kind is one of the ten of R56. -/
theorem Msg.kind_lt (m : Msg) : m.kind < 10 := by cases m <;> simp [Msg.kind]

end Sys2Proof.Machine
end

