-- ==== Sys2Proof/Laws/State.lean ====
section
/-! SUPPORT. What each update of the state does to each field: one lemma per field per update. -/

namespace Sys2Proof.Machine

/-! ### State.setLc -/

@[simp] theorem State.setLc_lc (s : State) (x : Lc) : (s.setLc x).lc = x := rfl
@[simp] theorem State.setLc_mu (s : State) (x : Lc) : (s.setLc x).mu = s.mu := rfl
@[simp] theorem State.setLc_msu (s : State) (x : Lc) : (s.setLc x).msu = s.msu := rfl
@[simp] theorem State.setLc_cq (s : State) (x : Lc) : (s.setLc x).cq = s.cq := rfl
@[simp] theorem State.setLc_ze (s : State) (x : Lc) : (s.setLc x).ze = s.ze := rfl
@[simp] theorem State.setLc_ss (s : State) (x : Lc) : (s.setLc x).ss = s.ss := rfl
@[simp] theorem State.setLc_rg (s : State) (x : Lc) : (s.setLc x).rg = s.rg := rfl
@[simp] theorem State.setLc_ou (s : State) (x : Lc) : (s.setLc x).ou = s.ou := rfl
@[simp] theorem State.setLc_ku (s : State) (x : Lc) : (s.setLc x).ku = s.ku := rfl
@[simp] theorem State.setLc_cp (s : State) (x : Lc) : (s.setLc x).cp = s.cp := rfl
@[simp] theorem State.setLc_cl (s : State) (x : Lc) : (s.setLc x).cl = s.cl := rfl
@[simp] theorem State.setLc_pending (s : State) (x : Lc) : (s.setLc x).pending = s.pending := rfl
@[simp] theorem State.setLc_station (s : State) (x : Lc) : (s.setLc x).station = s.station := rfl
@[simp] theorem State.setLc_conf (s : State) (x : Lc) : (s.setLc x).conf = s.conf := rfl
@[simp] theorem State.setLc_number (s : State) (x : Lc) : (s.setLc x).number = s.number := rfl
@[simp] theorem State.setLc_setLc (s : State) (x y : Lc) : (s.setLc x).setLc y = s.setLc y := rfl
@[simp] theorem State.setLc_self (s : State) : s.setLc s.lc = s := rfl

/-! ### State.setMu -/

@[simp] theorem State.setMu_lc (s : State) (x : Mu) : (s.setMu x).lc = s.lc := rfl
@[simp] theorem State.setMu_mu (s : State) (x : Mu) : (s.setMu x).mu = x := rfl
@[simp] theorem State.setMu_msu (s : State) (x : Mu) : (s.setMu x).msu = s.msu := rfl
@[simp] theorem State.setMu_cq (s : State) (x : Mu) : (s.setMu x).cq = s.cq := rfl
@[simp] theorem State.setMu_ze (s : State) (x : Mu) : (s.setMu x).ze = s.ze := rfl
@[simp] theorem State.setMu_ss (s : State) (x : Mu) : (s.setMu x).ss = s.ss := rfl
@[simp] theorem State.setMu_rg (s : State) (x : Mu) : (s.setMu x).rg = s.rg := rfl
@[simp] theorem State.setMu_ou (s : State) (x : Mu) : (s.setMu x).ou = s.ou := rfl
@[simp] theorem State.setMu_ku (s : State) (x : Mu) : (s.setMu x).ku = s.ku := rfl
@[simp] theorem State.setMu_cp (s : State) (x : Mu) : (s.setMu x).cp = s.cp := rfl
@[simp] theorem State.setMu_cl (s : State) (x : Mu) : (s.setMu x).cl = s.cl := rfl
@[simp] theorem State.setMu_pending (s : State) (x : Mu) : (s.setMu x).pending = s.pending := rfl
@[simp] theorem State.setMu_station (s : State) (x : Mu) : (s.setMu x).station = x.station := rfl
@[simp] theorem State.setMu_conf (s : State) (x : Mu) : (s.setMu x).conf = s.conf := rfl
@[simp] theorem State.setMu_number (s : State) (x : Mu) : (s.setMu x).number = s.number := rfl
@[simp] theorem State.setMu_setMu (s : State) (x y : Mu) : (s.setMu x).setMu y = s.setMu y := rfl
@[simp] theorem State.setMu_self (s : State) : s.setMu s.mu = s := rfl

/-! ### State.setMsu -/

@[simp] theorem State.setMsu_lc (s : State) (x : Msu) : (s.setMsu x).lc = s.lc := rfl
@[simp] theorem State.setMsu_mu (s : State) (x : Msu) : (s.setMsu x).mu = s.mu := rfl
@[simp] theorem State.setMsu_msu (s : State) (x : Msu) : (s.setMsu x).msu = x := rfl
@[simp] theorem State.setMsu_cq (s : State) (x : Msu) : (s.setMsu x).cq = s.cq := rfl
@[simp] theorem State.setMsu_ze (s : State) (x : Msu) : (s.setMsu x).ze = s.ze := rfl
@[simp] theorem State.setMsu_ss (s : State) (x : Msu) : (s.setMsu x).ss = s.ss := rfl
@[simp] theorem State.setMsu_rg (s : State) (x : Msu) : (s.setMsu x).rg = s.rg := rfl
@[simp] theorem State.setMsu_ou (s : State) (x : Msu) : (s.setMsu x).ou = s.ou := rfl
@[simp] theorem State.setMsu_ku (s : State) (x : Msu) : (s.setMsu x).ku = s.ku := rfl
@[simp] theorem State.setMsu_cp (s : State) (x : Msu) : (s.setMsu x).cp = s.cp := rfl
@[simp] theorem State.setMsu_cl (s : State) (x : Msu) : (s.setMsu x).cl = s.cl := rfl
@[simp] theorem State.setMsu_pending (s : State) (x : Msu) : (s.setMsu x).pending = s.pending := rfl
@[simp] theorem State.setMsu_station (s : State) (x : Msu) : (s.setMsu x).station = s.station := rfl
@[simp] theorem State.setMsu_conf (s : State) (x : Msu) : (s.setMsu x).conf = s.conf := rfl
@[simp] theorem State.setMsu_number (s : State) (x : Msu) : (s.setMsu x).number = s.number := rfl
@[simp] theorem State.setMsu_setMsu (s : State) (x y : Msu) : (s.setMsu x).setMsu y = s.setMsu y := rfl
@[simp] theorem State.setMsu_self (s : State) : s.setMsu s.msu = s := rfl

/-! ### State.setCq -/

@[simp] theorem State.setCq_lc (s : State) (x : Cq) : (s.setCq x).lc = s.lc := rfl
@[simp] theorem State.setCq_mu (s : State) (x : Cq) : (s.setCq x).mu = s.mu := rfl
@[simp] theorem State.setCq_msu (s : State) (x : Cq) : (s.setCq x).msu = s.msu := rfl
@[simp] theorem State.setCq_cq (s : State) (x : Cq) : (s.setCq x).cq = x := rfl
@[simp] theorem State.setCq_ze (s : State) (x : Cq) : (s.setCq x).ze = s.ze := rfl
@[simp] theorem State.setCq_ss (s : State) (x : Cq) : (s.setCq x).ss = s.ss := rfl
@[simp] theorem State.setCq_rg (s : State) (x : Cq) : (s.setCq x).rg = s.rg := rfl
@[simp] theorem State.setCq_ou (s : State) (x : Cq) : (s.setCq x).ou = s.ou := rfl
@[simp] theorem State.setCq_ku (s : State) (x : Cq) : (s.setCq x).ku = s.ku := rfl
@[simp] theorem State.setCq_cp (s : State) (x : Cq) : (s.setCq x).cp = s.cp := rfl
@[simp] theorem State.setCq_cl (s : State) (x : Cq) : (s.setCq x).cl = s.cl := rfl
@[simp] theorem State.setCq_pending (s : State) (x : Cq) : (s.setCq x).pending = s.pending := rfl
@[simp] theorem State.setCq_station (s : State) (x : Cq) : (s.setCq x).station = s.station := rfl
@[simp] theorem State.setCq_conf (s : State) (x : Cq) : (s.setCq x).conf = s.conf := rfl
@[simp] theorem State.setCq_number (s : State) (x : Cq) : (s.setCq x).number = s.number := rfl
@[simp] theorem State.setCq_setCq (s : State) (x y : Cq) : (s.setCq x).setCq y = s.setCq y := rfl
@[simp] theorem State.setCq_self (s : State) : s.setCq s.cq = s := rfl

/-! ### State.setZe -/

@[simp] theorem State.setZe_lc (s : State) (x : Ze) : (s.setZe x).lc = s.lc := rfl
@[simp] theorem State.setZe_mu (s : State) (x : Ze) : (s.setZe x).mu = s.mu := rfl
@[simp] theorem State.setZe_msu (s : State) (x : Ze) : (s.setZe x).msu = s.msu := rfl
@[simp] theorem State.setZe_cq (s : State) (x : Ze) : (s.setZe x).cq = s.cq := rfl
@[simp] theorem State.setZe_ze (s : State) (x : Ze) : (s.setZe x).ze = x := rfl
@[simp] theorem State.setZe_ss (s : State) (x : Ze) : (s.setZe x).ss = s.ss := rfl
@[simp] theorem State.setZe_rg (s : State) (x : Ze) : (s.setZe x).rg = s.rg := rfl
@[simp] theorem State.setZe_ou (s : State) (x : Ze) : (s.setZe x).ou = s.ou := rfl
@[simp] theorem State.setZe_ku (s : State) (x : Ze) : (s.setZe x).ku = s.ku := rfl
@[simp] theorem State.setZe_cp (s : State) (x : Ze) : (s.setZe x).cp = s.cp := rfl
@[simp] theorem State.setZe_cl (s : State) (x : Ze) : (s.setZe x).cl = s.cl := rfl
@[simp] theorem State.setZe_pending (s : State) (x : Ze) : (s.setZe x).pending = s.pending := rfl
@[simp] theorem State.setZe_station (s : State) (x : Ze) : (s.setZe x).station = s.station := rfl
@[simp] theorem State.setZe_conf (s : State) (x : Ze) : (s.setZe x).conf = s.conf := rfl
@[simp] theorem State.setZe_number (s : State) (x : Ze) : (s.setZe x).number = s.number := rfl
@[simp] theorem State.setZe_setZe (s : State) (x y : Ze) : (s.setZe x).setZe y = s.setZe y := rfl
@[simp] theorem State.setZe_self (s : State) : s.setZe s.ze = s := rfl

/-! ### State.setSs -/

@[simp] theorem State.setSs_lc (s : State) (x : Ss) : (s.setSs x).lc = s.lc := rfl
@[simp] theorem State.setSs_mu (s : State) (x : Ss) : (s.setSs x).mu = s.mu := rfl
@[simp] theorem State.setSs_msu (s : State) (x : Ss) : (s.setSs x).msu = s.msu := rfl
@[simp] theorem State.setSs_cq (s : State) (x : Ss) : (s.setSs x).cq = s.cq := rfl
@[simp] theorem State.setSs_ze (s : State) (x : Ss) : (s.setSs x).ze = s.ze := rfl
@[simp] theorem State.setSs_ss (s : State) (x : Ss) : (s.setSs x).ss = x := rfl
@[simp] theorem State.setSs_rg (s : State) (x : Ss) : (s.setSs x).rg = s.rg := rfl
@[simp] theorem State.setSs_ou (s : State) (x : Ss) : (s.setSs x).ou = s.ou := rfl
@[simp] theorem State.setSs_ku (s : State) (x : Ss) : (s.setSs x).ku = s.ku := rfl
@[simp] theorem State.setSs_cp (s : State) (x : Ss) : (s.setSs x).cp = s.cp := rfl
@[simp] theorem State.setSs_cl (s : State) (x : Ss) : (s.setSs x).cl = s.cl := rfl
@[simp] theorem State.setSs_pending (s : State) (x : Ss) : (s.setSs x).pending = s.pending := rfl
@[simp] theorem State.setSs_station (s : State) (x : Ss) : (s.setSs x).station = s.station := rfl
@[simp] theorem State.setSs_conf (s : State) (x : Ss) : (s.setSs x).conf = s.conf := rfl
@[simp] theorem State.setSs_number (s : State) (x : Ss) : (s.setSs x).number = s.number := rfl
@[simp] theorem State.setSs_setSs (s : State) (x y : Ss) : (s.setSs x).setSs y = s.setSs y := rfl
@[simp] theorem State.setSs_self (s : State) : s.setSs s.ss = s := rfl

/-! ### State.setRg -/

@[simp] theorem State.setRg_lc (s : State) (x : Rg) : (s.setRg x).lc = s.lc := rfl
@[simp] theorem State.setRg_mu (s : State) (x : Rg) : (s.setRg x).mu = s.mu := rfl
@[simp] theorem State.setRg_msu (s : State) (x : Rg) : (s.setRg x).msu = s.msu := rfl
@[simp] theorem State.setRg_cq (s : State) (x : Rg) : (s.setRg x).cq = s.cq := rfl
@[simp] theorem State.setRg_ze (s : State) (x : Rg) : (s.setRg x).ze = s.ze := rfl
@[simp] theorem State.setRg_ss (s : State) (x : Rg) : (s.setRg x).ss = s.ss := rfl
@[simp] theorem State.setRg_rg (s : State) (x : Rg) : (s.setRg x).rg = x := rfl
@[simp] theorem State.setRg_ou (s : State) (x : Rg) : (s.setRg x).ou = s.ou := rfl
@[simp] theorem State.setRg_ku (s : State) (x : Rg) : (s.setRg x).ku = s.ku := rfl
@[simp] theorem State.setRg_cp (s : State) (x : Rg) : (s.setRg x).cp = s.cp := rfl
@[simp] theorem State.setRg_cl (s : State) (x : Rg) : (s.setRg x).cl = s.cl := rfl
@[simp] theorem State.setRg_pending (s : State) (x : Rg) : (s.setRg x).pending = s.pending := rfl
@[simp] theorem State.setRg_station (s : State) (x : Rg) : (s.setRg x).station = s.station := rfl
@[simp] theorem State.setRg_conf (s : State) (x : Rg) : (s.setRg x).conf = s.conf := rfl
@[simp] theorem State.setRg_number (s : State) (x : Rg) : (s.setRg x).number = s.number := rfl
@[simp] theorem State.setRg_setRg (s : State) (x y : Rg) : (s.setRg x).setRg y = s.setRg y := rfl
@[simp] theorem State.setRg_self (s : State) : s.setRg s.rg = s := rfl

/-! ### State.setOu -/

@[simp] theorem State.setOu_lc (s : State) (x : Ou) : (s.setOu x).lc = s.lc := rfl
@[simp] theorem State.setOu_mu (s : State) (x : Ou) : (s.setOu x).mu = s.mu := rfl
@[simp] theorem State.setOu_msu (s : State) (x : Ou) : (s.setOu x).msu = s.msu := rfl
@[simp] theorem State.setOu_cq (s : State) (x : Ou) : (s.setOu x).cq = s.cq := rfl
@[simp] theorem State.setOu_ze (s : State) (x : Ou) : (s.setOu x).ze = s.ze := rfl
@[simp] theorem State.setOu_ss (s : State) (x : Ou) : (s.setOu x).ss = s.ss := rfl
@[simp] theorem State.setOu_rg (s : State) (x : Ou) : (s.setOu x).rg = s.rg := rfl
@[simp] theorem State.setOu_ou (s : State) (x : Ou) : (s.setOu x).ou = x := rfl
@[simp] theorem State.setOu_ku (s : State) (x : Ou) : (s.setOu x).ku = s.ku := rfl
@[simp] theorem State.setOu_cp (s : State) (x : Ou) : (s.setOu x).cp = s.cp := rfl
@[simp] theorem State.setOu_cl (s : State) (x : Ou) : (s.setOu x).cl = s.cl := rfl
@[simp] theorem State.setOu_pending (s : State) (x : Ou) : (s.setOu x).pending = s.pending := rfl
@[simp] theorem State.setOu_station (s : State) (x : Ou) : (s.setOu x).station = s.station := rfl
@[simp] theorem State.setOu_conf (s : State) (x : Ou) : (s.setOu x).conf = s.conf := rfl
@[simp] theorem State.setOu_number (s : State) (x : Ou) : (s.setOu x).number = s.number := rfl
@[simp] theorem State.setOu_setOu (s : State) (x y : Ou) : (s.setOu x).setOu y = s.setOu y := rfl
@[simp] theorem State.setOu_self (s : State) : s.setOu s.ou = s := rfl

/-! ### State.setKu -/

@[simp] theorem State.setKu_lc (s : State) (x : Ku) : (s.setKu x).lc = s.lc := rfl
@[simp] theorem State.setKu_mu (s : State) (x : Ku) : (s.setKu x).mu = s.mu := rfl
@[simp] theorem State.setKu_msu (s : State) (x : Ku) : (s.setKu x).msu = s.msu := rfl
@[simp] theorem State.setKu_cq (s : State) (x : Ku) : (s.setKu x).cq = s.cq := rfl
@[simp] theorem State.setKu_ze (s : State) (x : Ku) : (s.setKu x).ze = s.ze := rfl
@[simp] theorem State.setKu_ss (s : State) (x : Ku) : (s.setKu x).ss = s.ss := rfl
@[simp] theorem State.setKu_rg (s : State) (x : Ku) : (s.setKu x).rg = s.rg := rfl
@[simp] theorem State.setKu_ou (s : State) (x : Ku) : (s.setKu x).ou = s.ou := rfl
@[simp] theorem State.setKu_ku (s : State) (x : Ku) : (s.setKu x).ku = x := rfl
@[simp] theorem State.setKu_cp (s : State) (x : Ku) : (s.setKu x).cp = s.cp := rfl
@[simp] theorem State.setKu_cl (s : State) (x : Ku) : (s.setKu x).cl = s.cl := rfl
@[simp] theorem State.setKu_pending (s : State) (x : Ku) : (s.setKu x).pending = s.pending := rfl
@[simp] theorem State.setKu_station (s : State) (x : Ku) : (s.setKu x).station = s.station := rfl
@[simp] theorem State.setKu_conf (s : State) (x : Ku) : (s.setKu x).conf = s.conf := rfl
@[simp] theorem State.setKu_number (s : State) (x : Ku) : (s.setKu x).number = s.number := rfl
@[simp] theorem State.setKu_setKu (s : State) (x y : Ku) : (s.setKu x).setKu y = s.setKu y := rfl
@[simp] theorem State.setKu_self (s : State) : s.setKu s.ku = s := rfl

/-! ### State.setCp -/

@[simp] theorem State.setCp_lc (s : State) (x : Cp) : (s.setCp x).lc = s.lc := rfl
@[simp] theorem State.setCp_mu (s : State) (x : Cp) : (s.setCp x).mu = s.mu := rfl
@[simp] theorem State.setCp_msu (s : State) (x : Cp) : (s.setCp x).msu = s.msu := rfl
@[simp] theorem State.setCp_cq (s : State) (x : Cp) : (s.setCp x).cq = s.cq := rfl
@[simp] theorem State.setCp_ze (s : State) (x : Cp) : (s.setCp x).ze = s.ze := rfl
@[simp] theorem State.setCp_ss (s : State) (x : Cp) : (s.setCp x).ss = s.ss := rfl
@[simp] theorem State.setCp_rg (s : State) (x : Cp) : (s.setCp x).rg = s.rg := rfl
@[simp] theorem State.setCp_ou (s : State) (x : Cp) : (s.setCp x).ou = s.ou := rfl
@[simp] theorem State.setCp_ku (s : State) (x : Cp) : (s.setCp x).ku = s.ku := rfl
@[simp] theorem State.setCp_cp (s : State) (x : Cp) : (s.setCp x).cp = x := rfl
@[simp] theorem State.setCp_cl (s : State) (x : Cp) : (s.setCp x).cl = s.cl := rfl
@[simp] theorem State.setCp_pending (s : State) (x : Cp) : (s.setCp x).pending = s.pending := rfl
@[simp] theorem State.setCp_station (s : State) (x : Cp) : (s.setCp x).station = s.station := rfl
@[simp] theorem State.setCp_conf (s : State) (x : Cp) : (s.setCp x).conf = s.conf := rfl
@[simp] theorem State.setCp_number (s : State) (x : Cp) : (s.setCp x).number = s.number := rfl
@[simp] theorem State.setCp_setCp (s : State) (x y : Cp) : (s.setCp x).setCp y = s.setCp y := rfl
@[simp] theorem State.setCp_self (s : State) : s.setCp s.cp = s := rfl

/-! ### State.setCl -/

@[simp] theorem State.setCl_lc (s : State) (x : Cl) : (s.setCl x).lc = s.lc := rfl
@[simp] theorem State.setCl_mu (s : State) (x : Cl) : (s.setCl x).mu = s.mu := rfl
@[simp] theorem State.setCl_msu (s : State) (x : Cl) : (s.setCl x).msu = s.msu := rfl
@[simp] theorem State.setCl_cq (s : State) (x : Cl) : (s.setCl x).cq = s.cq := rfl
@[simp] theorem State.setCl_ze (s : State) (x : Cl) : (s.setCl x).ze = s.ze := rfl
@[simp] theorem State.setCl_ss (s : State) (x : Cl) : (s.setCl x).ss = s.ss := rfl
@[simp] theorem State.setCl_rg (s : State) (x : Cl) : (s.setCl x).rg = s.rg := rfl
@[simp] theorem State.setCl_ou (s : State) (x : Cl) : (s.setCl x).ou = s.ou := rfl
@[simp] theorem State.setCl_ku (s : State) (x : Cl) : (s.setCl x).ku = s.ku := rfl
@[simp] theorem State.setCl_cp (s : State) (x : Cl) : (s.setCl x).cp = s.cp := rfl
@[simp] theorem State.setCl_cl (s : State) (x : Cl) : (s.setCl x).cl = x := rfl
@[simp] theorem State.setCl_pending (s : State) (x : Cl) : (s.setCl x).pending = s.pending := rfl
@[simp] theorem State.setCl_station (s : State) (x : Cl) : (s.setCl x).station = s.station := rfl
@[simp] theorem State.setCl_conf (s : State) (x : Cl) : (s.setCl x).conf = x.config.getD .blank := rfl
@[simp] theorem State.setCl_setCl (s : State) (x y : Cl) : (s.setCl x).setCl y = s.setCl y := rfl
@[simp] theorem State.setCl_self (s : State) : s.setCl s.cl = s := rfl

/-! ### State.setPending -/

@[simp] theorem State.setPending_lc (s : State) (x : List Instr) : (s.setPending x).lc = s.lc := rfl
@[simp] theorem State.setPending_mu (s : State) (x : List Instr) : (s.setPending x).mu = s.mu := rfl
@[simp] theorem State.setPending_msu (s : State) (x : List Instr) : (s.setPending x).msu = s.msu := rfl
@[simp] theorem State.setPending_cq (s : State) (x : List Instr) : (s.setPending x).cq = s.cq := rfl
@[simp] theorem State.setPending_ze (s : State) (x : List Instr) : (s.setPending x).ze = s.ze := rfl
@[simp] theorem State.setPending_ss (s : State) (x : List Instr) : (s.setPending x).ss = s.ss := rfl
@[simp] theorem State.setPending_rg (s : State) (x : List Instr) : (s.setPending x).rg = s.rg := rfl
@[simp] theorem State.setPending_ou (s : State) (x : List Instr) : (s.setPending x).ou = s.ou := rfl
@[simp] theorem State.setPending_ku (s : State) (x : List Instr) : (s.setPending x).ku = s.ku := rfl
@[simp] theorem State.setPending_cp (s : State) (x : List Instr) : (s.setPending x).cp = s.cp := rfl
@[simp] theorem State.setPending_cl (s : State) (x : List Instr) : (s.setPending x).cl = s.cl := rfl
@[simp] theorem State.setPending_pending (s : State) (x : List Instr) : (s.setPending x).pending = x := rfl
@[simp] theorem State.setPending_station (s : State) (x : List Instr) : (s.setPending x).station = s.station := rfl
@[simp] theorem State.setPending_conf (s : State) (x : List Instr) : (s.setPending x).conf = s.conf := rfl
@[simp] theorem State.setPending_number (s : State) (x : List Instr) : (s.setPending x).number = s.number := rfl
@[simp] theorem State.setPending_setPending (s : State) (x y : List Instr) : (s.setPending x).setPending y = s.setPending y := rfl
@[simp] theorem State.setPending_self (s : State) : s.setPending s.pending = s := rfl

end Sys2Proof.Machine
end

