-- ==== Sys2Proof/Laws/Ops.lean ====
section
/-! SUPPORT. What the shared operations of Machine/Ops.lean can do: each once, with its fields. -/

namespace Sys2Proof.Machine

/-! ### Reports in the order they are taken -/

theorem takeHead_perm : ∀ (ls : List (List Report)) (p : Nat) (r : Report) (out : List (List Report)),
    takeHead ls p = some (r, out) → ls.flatten.Perm (r :: out.flatten)
  | [], p, r, out, h => by simp [takeHead] at h
  | [] :: ls, 0, r, out, h => by simp [takeHead] at h
  | (x :: l) :: ls, 0, r, out, h => by
    simp only [takeHead, Option.some.injEq, Prod.mk.injEq] at h
    obtain ⟨rfl, rfl⟩ := h
    simp
  | l :: ls, p + 1, r, out, h => by
    have h2 : (takeHead ls p).map (fun x => (x.1, l :: x.2)) = some (r, out) := by
      cases l <;> simpa [takeHead] using h
    obtain ⟨⟨r', out'⟩, h3, h4⟩ := Option.map_eq_some_iff.1 h2
    obtain ⟨rfl, rfl⟩ : r' = r ∧ l :: out' = out := by simpa using h4
    have ih := takeHead_perm ls p r' out' h3
    simp only [List.flatten_cons]
    exact (ih.append_left l).trans (List.perm_middle)

/-- The reports that CP takes are those the blocks offer, each once. -/
theorem interleave_perm : ∀ (order : OfferOrder) (ls : List (List Report)), (interleave order ls).Perm ls.flatten
  | [], ls => List.Perm.refl _
  | p :: ps, ls => by
    rw [interleave]
    cases h : takeHead ls p with
    | none => exact interleave_perm ps ls
    | some x => exact ((interleave_perm ps x.2).cons x.1).trans (takeHead_perm ls p x.1 x.2 h).symm

/-- With nothing offered, CP takes nothing. -/
theorem interleave_of_flatten_nil {ls : List (List Report)} (order : OfferOrder) (h : ls.flatten = []) :
    interleave order ls = [] := by
  simpa [h] using interleave_perm order ls

/-- With one report offered, CP takes it, whatever the order. -/
theorem interleave_of_flatten_singleton {ls : List (List Report)} {r : Report} (order : OfferOrder)
    (h : ls.flatten = [r]) : interleave order ls = [r] := by
  simpa [h] using interleave_perm order ls

/-! ### A happening in progress -/

@[simp] theorem Work.start_s (s : State) : (Work.start s).s = s := rfl
@[simp] theorem Work.start_lists (s : State) : (Work.start s).out.lists = [[], [], [], [], [], [], []] := rfl
@[simp] theorem Work.on_s (w : Work) (f : State → State) : (w.on f).s = f w.s := rfl
@[simp] theorem Work.on_out (w : Work) (f : State → State) : (w.on f).out = w.out := rfl
@[simp] theorem Work.line_s (w : Work) (e : LineEvent) : (w.line e).s = w.s := rfl
@[simp] theorem Work.lineWith_s (w : Work) (e : LineEvent) (c : Byte) : (w.lineWith e c).s = w.s := rfl
@[simp] theorem Work.duplicate_s (w : Work) (c : Byte) : (w.duplicate c).s = w.s := rfl
@[simp] theorem Work.commits_s (w : Work) (l : List Report) : (w.commits l).s = w.s := rfl
@[simp] theorem Work.stated_s (w : Work) (st : StationState) (c : Cause) : (w.stated st c).s = w.s := rfl
@[simp] theorem Work.members_s (w : Work) (l : List Report) : (w.members l).s = w.s := rfl
@[simp] theorem Work.zones_s (w : Work) (l : List Report) : (w.zones l).s = w.s := rfl
@[simp] theorem Work.outcomes_s (w : Work) (l : List Report) : (w.outcomes l).s = w.s := rfl

/-- The end of a happening changes CP alone. -/
theorem Work.finish_eq (order : OfferOrder) (w : Work) :
    w.finish order = w.s.setCp (w.s.cp.offerAll (interleave order w.out.lists)) := rfl

@[simp] theorem Work.finish_lc (order : OfferOrder) (w : Work) : (w.finish order).lc = w.s.lc := rfl
@[simp] theorem Work.finish_mu (order : OfferOrder) (w : Work) : (w.finish order).mu = w.s.mu := rfl
@[simp] theorem Work.finish_msu (order : OfferOrder) (w : Work) : (w.finish order).msu = w.s.msu := rfl
@[simp] theorem Work.finish_cq (order : OfferOrder) (w : Work) : (w.finish order).cq = w.s.cq := rfl
@[simp] theorem Work.finish_ze (order : OfferOrder) (w : Work) : (w.finish order).ze = w.s.ze := rfl
@[simp] theorem Work.finish_ss (order : OfferOrder) (w : Work) : (w.finish order).ss = w.s.ss := rfl
@[simp] theorem Work.finish_rg (order : OfferOrder) (w : Work) : (w.finish order).rg = w.s.rg := rfl
@[simp] theorem Work.finish_ou (order : OfferOrder) (w : Work) : (w.finish order).ou = w.s.ou := rfl
@[simp] theorem Work.finish_ku (order : OfferOrder) (w : Work) : (w.finish order).ku = w.s.ku := rfl
@[simp] theorem Work.finish_cl (order : OfferOrder) (w : Work) : (w.finish order).cl = w.s.cl := rfl
@[simp] theorem Work.finish_pending (order : OfferOrder) (w : Work) : (w.finish order).pending = w.s.pending := rfl
@[simp] theorem Work.finish_station (order : OfferOrder) (w : Work) : (w.finish order).station = w.s.station := rfl
@[simp] theorem Work.finish_conf (order : OfferOrder) (w : Work) : (w.finish order).conf = w.s.conf := rfl
@[simp] theorem Work.finish_number (order : OfferOrder) (w : Work) : (w.finish order).number = w.s.number := rfl

/-! ### The station state -/

@[simp] theorem Mu.enter_station (mu : Mu) (c : Configuration) (d : StationState) : (mu.enter c d).station = d := rfl
@[simp] theorem Mu.enter_score (mu : Mu) (c : Configuration) (d : StationState) : (mu.enter c d).score = mu.score := rfl
@[simp] theorem Mu.enter_members (mu : Mu) (c : Configuration) (d : StationState) :
    (mu.enter c d).members = mu.members.set c.number (ownRecord c d) := rfl

/-- A change of station state changes MU alone, as `Mu.enter` says. -/
@[simp] theorem Work.changeState_s (w : Work) (d : StationState) (c : Cause) :
    (w.changeState d c).s = w.s.setMu (w.s.mu.enter w.s.conf d) := rfl

/-- A change of station state gives its STATE event and no other report. -/
theorem Work.changeState_out (w : Work) (d : StationState) (c : Cause) :
    (w.changeState d c).out = { w.out with state := w.out.state ++ [.state d c] } := rfl

/-- Entry to membership, muting and unmuting change MU, and leave no item presented. -/
@[simp] theorem Work.changeStanding_s (w : Work) (d : StationState) (c : Cause) :
    (w.changeStanding d c).s = (w.s.setMu (w.s.mu.enter w.s.conf d)).setRg w.s.rg.drop := rfl

/-- A change between LISTENING, ACTIVE and MUTED gives its STATE event and no other report. -/
theorem Work.changeStanding_out (w : Work) (d : StationState) (c : Cause) :
    (w.changeStanding d c).out = { w.out with state := w.out.state ++ [.state d c] } := rfl

@[simp] theorem State.markZones_eq (s : State) : s.markZones = s.setZe (s.ze.markAll s.conf) := rfl

/-- Entry to membership changes MU, leaves no item presented and marks the zones. -/
theorem Work.enterMembership_s (w : Work) (c : Cause) :
    (w.enterMembership c).s =
      ((w.s.setMu ((w.s.mu.enter w.s.conf (if w.s.mu.score < 64 then .active else .muted)).clearJoin)).setRg
        w.s.rg.drop).setZe (w.s.ze.markAll w.s.conf) := rfl

/-! ### Contests and messages that end -/

/-- A contest that ends gives its entry back, or drops the generator's item; nothing else changes. -/
theorem State.endContest_cases (s : State) :
    (s.lc.contest = none ∧ s.endContest = s) ∨
    (∃ c, s.lc.contest = some c ∧ c.by_ = .queue ∧
      s.endContest = (s.setLc { s.lc with contest := none }).setCq s.cq.land) ∨
    (∃ c, s.lc.contest = some c ∧ c.by_ = .generator ∧
      s.endContest = (s.setLc { s.lc with contest := none }).setRg s.rg.drop) := by
  unfold State.endContest
  cases h : s.lc.contest with
  | none => exact .inl ⟨rfl, rfl⟩
  | some c =>
    cases h2 : c.by_
    · exact .inr (.inl ⟨c, rfl, h2, by simp [h2]⟩)
    · exact .inr (.inr ⟨c, rfl, h2, by simp [h2]⟩)

@[simp] theorem State.endContest_mu (s : State) : s.endContest.mu = s.mu := by
  unfold State.endContest; split <;> [rfl; (split <;> rfl)]
@[simp] theorem State.endContest_msu (s : State) : s.endContest.msu = s.msu := by
  unfold State.endContest; split <;> [rfl; (split <;> rfl)]
@[simp] theorem State.endContest_ze (s : State) : s.endContest.ze = s.ze := by
  unfold State.endContest; split <;> [rfl; (split <;> rfl)]
@[simp] theorem State.endContest_ss (s : State) : s.endContest.ss = s.ss := by
  unfold State.endContest; split <;> [rfl; (split <;> rfl)]
@[simp] theorem State.endContest_ou (s : State) : s.endContest.ou = s.ou := by
  unfold State.endContest; split <;> [rfl; (split <;> rfl)]
@[simp] theorem State.endContest_ku (s : State) : s.endContest.ku = s.ku := by
  unfold State.endContest; split <;> [rfl; (split <;> rfl)]
@[simp] theorem State.endContest_cp (s : State) : s.endContest.cp = s.cp := by
  unfold State.endContest; split <;> [rfl; (split <;> rfl)]
@[simp] theorem State.endContest_cl (s : State) : s.endContest.cl = s.cl := by
  unfold State.endContest; split <;> [rfl; (split <;> rfl)]
@[simp] theorem State.endContest_pending (s : State) : s.endContest.pending = s.pending := by
  unfold State.endContest; split <;> [rfl; (split <;> rfl)]
@[simp] theorem State.endContest_contest (s : State) : s.endContest.lc = { s.lc with contest := none } := by
  unfold State.endContest
  split
  · next h => rw [← h]
  · split <;> rfl

/-- What a voided message leaves at the block that presented it. -/
theorem Work.voided_s (w : Work) (p : Option Presenter) :
    (w.voided p).s = match p with
      | none => w.s
      | some .generator => w.s.setRg w.s.rg.drop
      | some .queue => w.s.setCq w.s.cq.void.1 := by
  cases p with
  | none => rfl
  | some p => cases p <;> rfl

/-- A contest or a message of a block is in the frame exactly when it contends or its message is on the line. -/
theorem State.inFrame_iff (s : State) (p : Presenter) :
    s.inFrame p = true ↔
      (∃ c, s.lc.contest = some c ∧ c.by_ = p) ∨ s.msu.frame.phase = .message ∧ s.msu.frame.presenter = some p := by
  unfold State.inFrame
  cases s.lc.contest <;> simp

/-! ### Score and faults -/

/-- A happening that raises the score does nothing outside membership; inside it adds to the score, and takes an ACTIVE
station that reaches 64 to MUTED, with no item presented. -/
theorem Work.raise_s (w : Work) (n : Nat) :
    (w.raise n).s =
      if w.s.station.ticking then
        if w.s.station = .active ∧ 64 ≤ min 255 (w.s.mu.score + n) then
          (w.s.setMu ((w.s.mu.addScore n).enter w.s.conf .muted)).setRg w.s.rg.drop
        else w.s.setMu (w.s.mu.addScore n)
      else w.s := by
  unfold Work.raise
  by_cases h : w.s.station.ticking = true
  · simp only [h, if_true]
    have hs : ((w.on fun s => s.setMu (s.mu.addScore n)).s.station == StationState.active) =
        (w.s.station == .active) := rfl
    have hv : (w.on fun s => s.setMu (s.mu.addScore n)).s.mu.score = min 255 (w.s.mu.score + n) := rfl
    rw [hs, hv]
    by_cases h2 : w.s.station = .active ∧ 64 ≤ min 255 (w.s.mu.score + n)
    · rw [if_pos h2, if_pos (by simp [h2.1, Config.scoreHigh]; simpa using h2.2)]; rfl
    · rw [if_neg h2, if_neg]
      · rfl
      · intro h3
        rw [Bool.and_eq_true, beq_iff_eq, decide_eq_true_eq] at h3
        exact h2 h3
  · simp [h]

/-- A disturbance sets its indication and nothing else. -/
theorem Work.disturb_s (w : Work) : w.disturb.s = w.s.setLc { w.s.lc with disturbance := true } := by
  unfold Work.disturb
  split
  · next h => rw [← h]; rfl
  · rfl

/-- A drive fault: none of its effects after the first of a frame; the entry to LINE FAULT when the frame before had
one; otherwise the indication and a rise of 8. -/
theorem Work.driveFault_s (w : Work) :
    w.driveFault.s =
      if w.s.lc.driveFault then w.s
      else
        let seen := (w.on fun s => s.setLc { s.lc with driveFault := true }).line .driveFault
        if w.s.mu.faultBefore then ((seen.on fun s => s.setMu (s.mu.addScore 8)).enterLineFault .driveFaults).s
        else (seen.raise 8).s := by
  unfold Work.driveFault
  split
  · rfl
  · simp only
    rw [show ((w.on fun s => s.setLc { s.lc with driveFault := true }).line .driveFault).s.mu.faultBefore =
      w.s.mu.faultBefore from rfl]
    split <;> rfl

/-- Entry to LINE FAULT leaves the scene store, the outputs, the keys, CL and the queue of commands as they were. -/
theorem Work.enterLineFault_frame (w : Work) (c : Cause) :
    (w.enterLineFault c).s.ss = w.s.ss ∧ (w.enterLineFault c).s.ou = w.s.ou ∧ (w.enterLineFault c).s.ku = w.s.ku ∧
      (w.enterLineFault c).s.cp = w.s.cp ∧ (w.enterLineFault c).s.cl = w.s.cl ∧
      (w.enterLineFault c).s.pending = w.s.pending := by
  have hv : ∀ p : Option Presenter, ((w.on State.endContest).voided p).s.ss = w.s.ss ∧
      ((w.on State.endContest).voided p).s.ou = w.s.ou ∧ ((w.on State.endContest).voided p).s.ku = w.s.ku ∧
      ((w.on State.endContest).voided p).s.cp = w.s.cp ∧ ((w.on State.endContest).voided p).s.cl = w.s.cl ∧
      ((w.on State.endContest).voided p).s.pending = w.s.pending := by
    intro p
    rw [Work.voided_s]
    cases p with
    | none => simp
    | some p => cases p <;> simp
  exact hv _

/-- Entry to LINE FAULT: the station state, the score and the frame at the message unit. -/
theorem Work.enterLineFault_line (w : Work) (c : Cause) :
    (w.enterLineFault c).s.station = .lineFault ∧ (w.enterLineFault c).s.lc.drive = .released ∧
      (w.enterLineFault c).s.lc.framed = false ∧ (w.enterLineFault c).s.lc.contest = none ∧
      (w.enterLineFault c).s.lc.claimOpen = false ∧ (w.enterLineFault c).s.msu.frame = .cleared .noFrame ∧
      (w.enterLineFault c).s.msu.slot = none :=
  ⟨rfl, rfl, rfl, rfl, rfl, rfl, rfl⟩

/-- Entry to LISTENING changes LC, MSU and MU alone. -/
theorem Work.enterListening_s (w : Work) (c : Cause) :
    (w.enterListening c).s =
      ((w.s.setLc (w.s.lc.toListening w.s.conf.ownWidth)).setMsu w.s.msu.abandon).setMu
        ({ w.s.mu.clearJoin with faultBefore := false }.enter w.s.conf .listening) := rfl

end Sys2Proof.Machine
end

