-- ==== Sys2Proof/Laws/Line.lean ====
section
/-! SUPPORT. What a cell start and the memory read can do: each operation once. -/

namespace Sys2Proof.Machine

/-- The buffer after some bytes of the read: those it held and the new ones, up to 39. -/
theorem Cl.clockIn_fold (block : List Byte) : ∀ cl : Cl, cl.buffer.length ≤ 39 →
    block.foldl Cl.clockIn cl = { cl with buffer := (cl.buffer ++ block).take 39 } := by
  induction block with
  | nil => intro cl h; simp [List.take_of_length_le h]
  | cons b block ih =>
    intro cl h
    by_cases hlt : cl.buffer.length < 39
    · have hb : cl.clockIn b = { cl with buffer := cl.buffer ++ [b] } := if_pos hlt
      rw [List.foldl_cons, hb, ih _ (by simpa using hlt)]
      simp
    · have hb : cl.clockIn b = cl := if_neg hlt
      have hfull : cl.buffer.length = 39 := by omega
      rw [List.foldl_cons, hb, ih _ h]
      simp [hfull]

/-- A pull counts no longer than the measure has run. -/
theorem Lc.pullAt_eq (lc : Lc) (passed pulledFor : Nat) :
    lc.pullAt passed pulledFor = min pulledFor (lc.measured + passed) := rfl

/-- In a cell without a warm restart all that has passed of it counts. -/
theorem Lc.counted_whole (lc : Lc) (lasted since : Nat) (h : lc.fresh = false) : lc.counted lasted since = lasted := by
  simp [Lc.counted, h]

/-- In the cell of a warm restart only what has passed since then counts. -/
theorem Lc.counted_fresh (lc : Lc) (lasted since : Nat) (h : lc.fresh = true) : lc.counted lasted since = since := by
  simp [Lc.counted, h]

/-- An observation of the line changes the stuck pull measure and its hand-over mark alone. -/
theorem Lc.measurePull_eq (lc : Lc) (own passed pulledFor : Nat) :
    lc.measurePull own passed pulledFor = { lc with
      pullLength := min pulledFor (lc.measured + passed)
      pullHanded := lc.pullHanded && decide (3 * own < min pulledFor (lc.measured + passed)) } := rfl

/-- A cell start changes LC and the frame position alone. -/
theorem State.beginCell_frame (o : CellObs) (s : State) :
    (s.beginCell o).mu = s.mu ∧ (s.beginCell o).msu = s.msu ∧ (s.beginCell o).cq = s.cq ∧ (s.beginCell o).ze = s.ze ∧
      (s.beginCell o).ss = s.ss ∧ (s.beginCell o).rg = s.rg ∧ (s.beginCell o).ku = s.ku ∧ (s.beginCell o).cp = s.cp ∧
      (s.beginCell o).cl = s.cl ∧ (s.beginCell o).pending = s.pending ∧ (s.beginCell o).ou = s.ou.atCell :=
  ⟨rfl, rfl, rfl, rfl, rfl, rfl, rfl, rfl, rfl, rfl, rfl⟩

/-- The founding threshold is three own frame lengths. -/
@[simp] theorem Configuration.foundingWidths_eq (c : Configuration) : c.foundingWidths = 3 * c.frameLength := rfl

/-- The silence measure changes the silence count and its part alone: at a transition 0, unless the founding threshold
was reached before it; otherwise 1 more when a whole own width has passed. -/
theorem Lc.measureSilence_cases (lc : Lc) (own threshold d : Nat) (transition : Bool) :
    (transition = true ∧ lc.silenceBefore own d < threshold ∧
      lc.measureSilence own threshold d transition = { lc with silence := 0, silencePart := 0 }) ∨
    (transition = true ∧ threshold ≤ lc.silenceBefore own d ∧ lc.measureSilence own threshold d transition =
      { lc with silence := lc.silenceBefore own d, silencePart := 0 }) ∨
    (transition = false ∧ (own : Int) ≤ lc.silencePart + d ∧ lc.measureSilence own threshold d transition =
      { lc with silence := min 765 (lc.silence + 1), silencePart := lc.silencePart + d - own }) ∨
    (transition = false ∧ lc.silencePart + d < own ∧
      lc.measureSilence own threshold d transition = { lc with silencePart := lc.silencePart + d }) := by
  unfold Lc.measureSilence
  cases transition
  · by_cases h : (own : Int) ≤ lc.silencePart + d
    · exact .inr (.inr (.inl ⟨rfl, h, by simp [h, Config.maxSilence]⟩))
    · exact .inr (.inr (.inr ⟨rfl, by omega, by simp [h]⟩))
  · by_cases h : threshold ≤ lc.silenceBefore own d
    · exact .inr (.inl ⟨rfl, h, by simp [h]⟩)
    · exact .inl ⟨rfl, by omega, by simp [h]⟩

/-- The silence count before a transition is at most one more than it was. -/
theorem Lc.silenceBefore_le (lc : Lc) (own d : Nat) : lc.silenceBefore own d ≤ max lc.silence (min 765 (lc.silence + 1)) := by
  unfold Lc.silenceBefore
  split <;> simp [Config.maxSilence]

end Sys2Proof.Machine
end

