-- ==== Sys2Proof/Laws/Zones.lean ====
section
/-! SUPPORT. What a change of the zone table does to one record, and what the scene store's writes do to one entry. -/

namespace Sys2Proof.Machine

/-- A change of the live records changes the record of a tracked zone and no other. -/
@[simp] theorem Ze.mapLive_get (ze : Ze) (c : Configuration) (f : Fin 16 → ZoneRecord → ZoneRecord) (z : Fin 16) :
    (ze.mapLive c f).zones[z] = if c.tracks z then f z ze.zones[z] else ze.zones[z] := by
  simp [Ze.mapLive]

@[simp] theorem Ze.mapLive_failsafe (ze : Ze) (c : Configuration) (f : Fin 16 → ZoneRecord → ZoneRecord) :
    (ze.mapLive c f).failsafe = ze.failsafe := rfl

/-- One stage at one record. -/
@[simp] theorem Ze.stage_get (ze : Ze) (c : Configuration) (f : Fin 16 → ZoneRecord → ZoneRecord × Option ZoneCause)
    (z : Fin 16) : (ze.stage c f).1.zones[z] = if c.tracks z then (f z ze.zones[z]).1 else ze.zones[z] := by
  rw [Ze.stage, Ze.mapLive_get]

@[simp] theorem Ze.stage_failsafe (ze : Ze) (c : Configuration)
    (f : Fin 16 → ZoneRecord → ZoneRecord × Option ZoneCause) : (ze.stage c f).1.failsafe = ze.failsafe := by rw [Ze.stage, Ze.mapLive_failsafe]

/-- Marking at one record. -/
@[simp] theorem Ze.markAll_get (ze : Ze) (c : Configuration) (z : Fin 16) :
    (ze.markAll c).zones[z] = if c.tracks z then ze.zones[z].mark else ze.zones[z] := by
  rw [Ze.markAll, Ze.mapLive_get]

@[simp] theorem Ze.markAll_failsafe (ze : Ze) (c : Configuration) : (ze.markAll c).failsafe = ze.failsafe := rfl

/-- What a hold check keeps. -/
@[simp] theorem ZoneRecord.holdCheck_target (r : ZoneRecord) : r.holdCheck.target = r.target := by
  unfold ZoneRecord.holdCheck; split <;> rfl
@[simp] theorem ZoneRecord.holdCheck_current (r : ZoneRecord) : r.holdCheck.current = r.current := by
  unfold ZoneRecord.holdCheck; split <;> rfl
@[simp] theorem ZoneRecord.holdCheck_fade (r : ZoneRecord) : r.holdCheck.fade = r.fade := by
  unfold ZoneRecord.holdCheck; split <;> rfl
@[simp] theorem ZoneRecord.holdCheck_lastOn (r : ZoneRecord) : r.holdCheck.lastOn = r.lastOn := by
  unfold ZoneRecord.holdCheck; split <;> rfl
@[simp] theorem ZoneRecord.holdCheck_unverified (r : ZoneRecord) : r.holdCheck.unverified = r.unverified := by
  unfold ZoneRecord.holdCheck; split <;> rfl
@[simp] theorem ZoneRecord.holdCheck_age (r : ZoneRecord) : r.holdCheck.age = r.age := by
  unfold ZoneRecord.holdCheck; split <;> rfl
@[simp] theorem ZoneRecord.holdCheck_heard (r : ZoneRecord) : r.holdCheck.heard = r.heard := by
  unfold ZoneRecord.holdCheck; split <;> rfl
/-- A hold check leaves a hold only above target 0. -/
theorem ZoneRecord.holdCheck_hold (r : ZoneRecord) : r.holdCheck.hold = if r.target = 0 then none else r.hold := by
  unfold ZoneRecord.holdCheck; split <;> rfl

/-- The entry that a write leaves at a pair. -/
theorem Ss.setEntry_entry (ss : Ss) (s z : Fin 16) (e : SceneEntry) (s2 z2 : Fin 16) :
    (ss.setEntry s z e).entry s2 z2 = if s2 = s ∧ z2 = z then e else ss.entry s2 z2 := by
  unfold Ss.setEntry Ss.entry
  by_cases hs : s2 = s
  · subst hs
    by_cases hz : z2 = z
    · subst hz; simp
    · have : ¬(z : Nat) = (z2 : Nat) := fun h => hz (Fin.ext h.symm)
      simp [hz, this]
  · have : ¬(s : Nat) = (s2 : Nat) := fun h => hs (Fin.ext h.symm)
    simp [hs, this]

@[simp] theorem Ss.setEntry_gens (ss : Ss) (s z : Fin 16) (e : SceneEntry) : (ss.setEntry s z e).gens = ss.gens := rfl

end Sys2Proof.Machine
end

