-- ==== Sys2Proof/Laws/Marks.lean ====
section
/-! SUPPORT. What each part of a frame mark leaves unchanged. -/

namespace Sys2Proof.Machine

/-- The blocks that the claim queue's and the key unit's work at a mark does not touch. -/
def SameBut (s t : State) : Prop :=
  t.lc = s.lc ∧ t.mu = s.mu ∧ t.msu = s.msu ∧ t.ze = s.ze ∧ t.ss = s.ss ∧ t.rg = s.rg ∧ t.ou = s.ou ∧ t.cp = s.cp ∧
    t.cl = s.cl ∧ t.pending = s.pending

theorem SameBut.refl (s : State) : SameBut s s := ⟨rfl, rfl, rfl, rfl, rfl, rfl, rfl, rfl, rfl, rfl⟩

theorem SameBut.trans {s t u : State} (h : SameBut s t) (k : SameBut t u) : SameBut s u := by
  obtain ⟨a1, a2, a3, a4, a5, a6, a7, a8, a9, a10⟩ := h
  obtain ⟨b1, b2, b3, b4, b5, b6, b7, b8, b9, b10⟩ := k
  exact ⟨b1.trans a1, b2.trans a2, b3.trans a3, b4.trans a4, b5.trans a5, b6.trans a6, b7.trans a7, b8.trans a8,
    b9.trans a9, b10.trans a10⟩

/-- A key's offer changes the claim queue alone. -/
theorem Work.keyOffer_same (w : Work) (k : Fin 4) (req : Option Request) :
    SameBut w.s (w.keyOffer k req).s ∧ (w.keyOffer k req).s.ku = w.s.ku := by
  cases req <;> exact ⟨SameBut.refl _, rfl⟩

/-- One task of the claim queue at a mark changes the claim queue and the key unit alone. -/
theorem Work.queueTask_same (m : MarkObs) (ended : Bool) (w : Work) (t : QueueTask) :
    SameBut w.s (w.queueTask m ended t).s := by
  cases t with
  | frameEnd => cases ended <;> exact SameBut.refl _
  | sweep => exact SameBut.refl _
  | key k =>
    unfold Work.queueTask Work.keyAtMark
    exact SameBut.trans (SameBut.refl _) (Work.keyOffer_same _ k _).1

/-- All of them do. -/
theorem queueTasks_same (m : MarkObs) (ended : Bool) (l : List QueueTask) (w : Work) :
    SameBut w.s (l.foldl (Work.queueTask m ended) w).s := by
  induction l generalizing w with
  | nil => exact SameBut.refl _
  | cons t l ih => exact (Work.queueTask_same m ended w t).trans (ih _)

/-- The evidence of a settled message changes the member table alone. -/
theorem Work.evidence_s (k : MarkKind) (m : MarkObs) (w : Work) :
    ∃ members, (w.evidence k m).s = w.s.setMu { w.s.mu with members := members } := by
  unfold Work.evidence
  split
  · exact ⟨_, rfl⟩
  · simp only
    split
    · split <;> exact ⟨_, rfl⟩
    · exact ⟨_, rfl⟩

/-- The stages of a mark change the zone table and the scene store alone. -/
theorem Work.zoneStages_s (k : MarkKind) (fullActive : Bool) (w : Work) :
    ∃ ze ss, (w.zoneStages k fullActive).s = (w.s.setZe ze).setSs ss := ⟨_, _, rfl⟩

/-- The end of a frame changes no more than LC's contest, the frame record and the generator's item. -/
theorem Work.endFrame_s (k : MarkKind) (m : MarkObs) (w : Work) :
    (w.endFrame k m).s =
      ((w.s.setRg (if w.s.inFrame .generator then w.s.rg.drop else w.s.rg)).setLc
        { w.s.lc with contest := none }).setMsu { w.s.msu with frame := w.s.msu.frame.cut } := by
  unfold Work.endFrame
  split <;> rfl

/-- The one report of a frame's end is DISTURBANCE, at a cut of a frame that has offered none. -/
theorem Work.endFrame_out (k : MarkKind) (m : MarkObs) (w : Work) :
    (w.endFrame k m).out = if k = .cutShort ∧ w.s.lc.disturbance = false then
      { w.out with line := w.out.line ++ [.line .disturbance (markCount k m.cutCounted w.s)] } else w.out := by
  unfold Work.endFrame
  split <;> rfl

theorem foldl_addTask_known (r : List QueueTask) : ∀ out : List QueueTask, (∀ t ∈ r, t ∈ out) →
    r.foldl addTask out = out := by
  induction r with
  | nil => intro out _; rfl
  | cons t r ih =>
    intro out h
    have ht : addTask out t = out := by simp [addTask, h t (by simp)]
    rw [List.foldl_cons, ht]
    exact ih out fun u hu => h u (by simp [hu])

theorem foldl_addTask_fresh (r : List QueueTask) : ∀ out : List QueueTask, (out ++ r).Nodup →
    (out ++ r).idxOf .frameEnd < (out ++ r).idxOf .sweep → r.foldl addTask out = out ++ r := by
  induction r with
  | nil => intro out _ _; simp
  | cons t r ih =>
    intro out hn hlt
    have hfresh : t ∉ out := fun h => (List.nodup_append.1 hn).2.2 t h t (by simp) rfl
    have hadd : addTask out t = out ++ [t] := by
      have hend : t = .sweep → .frameEnd ∈ out := by
        rintro rfl
        by_contra hf
        rw [List.idxOf_append_of_notMem hfresh, List.idxOf_append_of_notMem hf] at hlt
        simp at hlt
      by_cases hs : t = .sweep
      · simp [addTask, hfresh, hend hs]
      · simp [addTask, hfresh, hs]
    rw [List.foldl_cons, hadd, ih (out ++ [t]) (by simpa using hn) (by simpa using hlt)]
    simp

/-- A complete order of the claim queue's tasks is the order in which a mark takes them. -/
theorem taskOrder_complete (l : List QueueTask) (h : QueueTask.completeOrder l = true) : taskOrder l = l := by
  simp only [QueueTask.completeOrder, Bool.and_eq_true, beq_iff_eq, List.contains_iff_mem, decide_eq_true_eq] at h
  obtain ⟨⟨⟨⟨⟨⟨⟨hlen, h1⟩, h2⟩, h3⟩, h4⟩, h5⟩, h6⟩, hlt⟩ := h
  have hall : ∀ t ∈ ([.frameEnd, .sweep, .key 0, .key 1, .key 2, .key 3] : List QueueTask), t ∈ l := by
    intro t ht
    simp only [List.mem_cons, List.not_mem_nil, or_false] at ht
    rcases ht with rfl | rfl | rfl | rfl | rfl | rfl <;> assumption
  have hperm := (List.subperm_of_subset (by decide) hall).perm_of_length_le (by simp [hlen])
  have hnodup : l.Nodup := hperm.nodup_iff.1 (by decide)
  rw [taskOrder, List.foldl_append, foldl_addTask_fresh l [] (by simpa using hnodup) (by simpa using hlt)]
  exact foldl_addTask_known _ _ (by simpa using hall)

end Sys2Proof.Machine
end

