-- ==== Sys2Proof/Laws/Port.lean ====
section
/-! SUPPORT. What the companion port's shared operations can do: the transmitter's choice, an offered report, a reply. -/

namespace Sys2Proof.Machine

/-! ### The transmitter -/

/-- A choice takes the reply, or the queue's head, or nothing, and changes no more than the queue and the transmitter.
-/
theorem Cp.choose_cases (cp : Cp) :
    (∃ r, cp.slot = some r ∧ cp.choose = { cp with sending := some ⟨true, r.frame⟩ }) ∨
    (∃ q rest, cp.slot = none ∧ cp.queue = q :: rest ∧
      cp.choose = { cp with queue := rest, sending := some ⟨false, q.frame⟩ }) ∨
    (cp.slot = none ∧ cp.queue = [] ∧ cp.choose = { cp with sending := none }) := by
  unfold Cp.choose
  cases hs : cp.slot <;> cases hq : cp.queue <;> simp

/-- An IDLE transmitter chooses, and a busy one goes on. -/
theorem Cp.kick_cases (cp : Cp) :
    (cp.sending = none ∧ cp.kick = cp.choose) ∨ (cp.sending ≠ none ∧ cp.kick = cp) := by
  unfold Cp.kick
  cases h : cp.sending <;> simp

@[simp] theorem Cp.kick_slot (cp : Cp) : cp.kick.slot = cp.slot := by
  unfold Cp.kick Cp.choose
  cases hs : cp.slot <;> cases hq : cp.queue <;> cases h : cp.sending <;> simp [hs]

@[simp] theorem Cp.kick_assembler (cp : Cp) : cp.kick.assembler = cp.assembler := by
  unfold Cp.kick Cp.choose
  cases hs : cp.slot <;> cases hq : cp.queue <;> cases h : cp.sending <;> simp

@[simp] theorem Cp.kick_overrun (cp : Cp) : cp.kick.overrun = cp.overrun := by
  unfold Cp.kick Cp.choose
  cases hs : cp.slot <;> cases hq : cp.queue <;> cases h : cp.sending <;> simp

@[simp] theorem Cp.kick_restart (cp : Cp) : cp.kick.restart = cp.restart := by
  unfold Cp.kick Cp.choose
  cases hs : cp.slot <;> cases hq : cp.queue <;> cases h : cp.sending <;> simp

@[simp] theorem Cp.kick_subs (cp : Cp) : cp.kick.subs = cp.subs := by
  unfold Cp.kick Cp.choose
  cases hs : cp.slot <;> cases hq : cp.queue <;> cases h : cp.sending <;> simp

@[simp] theorem Cp.kick_lost (cp : Cp) : cp.kick.lost = cp.lost := by
  unfold Cp.kick Cp.choose
  cases hs : cp.slot <;> cases hq : cp.queue <;> cases h : cp.sending <;> simp

/-- After a kick the transmitter is IDLE only with nothing available to it. -/
theorem Cp.kick_idle (cp : Cp) : cp.kick.sending = none → cp.kick.queue = [] ∧ cp.kick.slot = none := by
  unfold Cp.kick Cp.choose
  cases hs : cp.slot <;> cases hq : cp.queue <;> cases h : cp.sending <;> simp [hs, h]

/-- A kick never lengthens the queue. -/
theorem Cp.kick_queue_length (cp : Cp) : cp.kick.queue.length ≤ cp.queue.length := by
  unfold Cp.kick Cp.choose
  cases hs : cp.slot <;> cases hq : cp.queue <;> cases h : cp.sending <;> simp [hq]

/-! ### Reports -/

/-- A report is queued with the lost count and sequence number, or discarded and counted. -/
theorem Cp.enqueue_cases (cp : Cp) (r : Report) :
    (cp.queue.length < 16 ∧ cp.enqueue r =
      { cp with queue := cp.queue ++ [⟨r, cp.lost, cp.seq⟩], lost := 0, seq := cp.seq + 1 }) ∨
    (16 ≤ cp.queue.length ∧ cp.enqueue r = { cp with lost := min 255 (cp.lost + 1) }) := by
  unfold Cp.enqueue
  by_cases h : cp.queue.length < Config.maxReports
  · exact .inl ⟨h, by simp [h]⟩
  · exact .inr ⟨by simpa [Config.maxReports] using h, by simp [h, Config.maxByte]⟩

/-- A report whose class is not subscribed leaves the port as it was; any other is queued and the transmitter kicked. -/
theorem Cp.offer_cases (cp : Cp) (r : Report) :
    (cp.wants r = false ∧ cp.offer r = cp) ∨ (cp.wants r = true ∧ cp.offer r = (cp.enqueue r).kick) := by
  unfold Cp.offer
  cases h : cp.wants r <;> simp

@[simp] theorem Cp.offer_slot (cp : Cp) (r : Report) : (cp.offer r).slot = cp.slot := by
  unfold Cp.offer Cp.enqueue; split <;> [skip; rfl]; split <;> simp

@[simp] theorem Cp.offer_assembler (cp : Cp) (r : Report) : (cp.offer r).assembler = cp.assembler := by
  unfold Cp.offer Cp.enqueue; split <;> [skip; rfl]; split <;> simp

@[simp] theorem Cp.offer_overrun (cp : Cp) (r : Report) : (cp.offer r).overrun = cp.overrun := by
  unfold Cp.offer Cp.enqueue; split <;> [skip; rfl]; split <;> simp

@[simp] theorem Cp.offer_restart (cp : Cp) (r : Report) : (cp.offer r).restart = cp.restart := by
  unfold Cp.offer Cp.enqueue; split <;> [skip; rfl]; split <;> simp

@[simp] theorem Cp.offer_subs (cp : Cp) (r : Report) : (cp.offer r).subs = cp.subs := by
  unfold Cp.offer Cp.enqueue; split <;> [skip; rfl]; split <;> simp

@[simp] theorem Cp.offerAll_nil (cp : Cp) : cp.offerAll [] = cp := rfl

@[simp] theorem Cp.offerAll_cons (cp : Cp) (r : Report) (l : List Report) :
    cp.offerAll (r :: l) = (cp.offer r).offerAll l := rfl

theorem Cp.offerAll_append (cp : Cp) (l m : List Report) :
    cp.offerAll (l ++ m) = (cp.offerAll l).offerAll m := List.foldl_append

/-- What every offer keeps, a list of offers keeps. -/
theorem Cp.offerAll_keeps {p : Cp → Prop} (h : ∀ cp r, p cp → p (cp.offer r)) (l : List Report) :
    ∀ cp, p cp → p (cp.offerAll l) := by
  induction l with
  | nil => exact fun _ hp => hp
  | cons r l ih => exact fun cp hp => ih _ (h cp r hp)

@[simp] theorem Cp.offerAll_slot (l : List Report) (cp : Cp) : (cp.offerAll l).slot = cp.slot :=
  Cp.offerAll_keeps (p := fun c => c.slot = cp.slot) (fun c r h => by simpa using h) l cp rfl

@[simp] theorem Cp.offerAll_restart (l : List Report) (cp : Cp) : (cp.offerAll l).restart = cp.restart :=
  Cp.offerAll_keeps (p := fun c => c.restart = cp.restart) (fun c r h => by simpa using h) l cp rfl

@[simp] theorem Cp.offerAll_assembler (l : List Report) (cp : Cp) : (cp.offerAll l).assembler = cp.assembler :=
  Cp.offerAll_keeps (p := fun c => c.assembler = cp.assembler) (fun c r h => by simpa using h) l cp rfl

@[simp] theorem Cp.offerAll_subs (l : List Report) (cp : Cp) : (cp.offerAll l).subs = cp.subs :=
  Cp.offerAll_keeps (p := fun c => c.subs = cp.subs) (fun c r h => by simpa using h) l cp rfl

/-! ### Replies -/

@[simp] theorem Cp.reply_restart (cp : Cp) (t g : Byte) (b : List Byte) : (cp.reply t g b).restart = cp.restart := by
  simp [Cp.reply]

@[simp] theorem Cp.reply_overrun (cp : Cp) (t g : Byte) (b : List Byte) : (cp.reply t g b).overrun = false := by
  simp [Cp.reply]

/-- A reply fills the slot, with the overrun flag of its type when a request was turned away. -/
theorem Cp.reply_slot (cp : Cp) (t g : Byte) (b : List Byte) :
    (cp.reply t g b).slot = some ⟨if cp.overrun then t ||| 0x40#8 else t, g, b⟩ := by
  simp [Cp.reply]

/-! ### Requests -/

/-- A request at CP: not processed in RESET, an overrun at a full slot, refused by the first test that fails, or acted
on. -/
theorem State.takeRequest_cases (s : State) (t : RequestType) (tag : Byte) (body : List Byte) (act : State → State) :
    (s.station = .reset ∧ s.takeRequest t tag body act = s) ∨
    (s.cp.slot ≠ none ∧ s.takeRequest t tag body act = s.setCp { s.cp with overrun := true }) ∨
    (s.cp.slot = none ∧ ∃ r, s.takeRequest t tag body act = s.setCp (s.cp.refuse tag r)) ∨
    (s.station ≠ .reset ∧ s.cp.slot = none ∧ t.lengthOk body = true ∧ t.stateFault s.station = none ∧
      t.fieldFault body = none ∧ s.takeRequest t tag body act = act s) := by
  unfold State.takeRequest
  by_cases h1 : s.station = .reset
  · exact .inl ⟨h1, if_pos h1⟩
  rw [if_neg h1]
  by_cases h2 : s.cp.slot = none
  · rw [h2]
    simp only [Option.isSome_none, Bool.false_eq_true, if_false]
    cases h3 : t.lengthOk body
    · exact .inr (.inr (.inl ⟨trivial, .badLength, by simp [State.refuse]⟩))
    cases h4 : t.stateFault s.station with
    | some r => exact .inr (.inr (.inl ⟨trivial, r, by simp [State.refuse]⟩))
    | none =>
      cases h5 : t.fieldFault body with
      | some i => exact .inr (.inr (.inl ⟨trivial, .badField i, by simp [State.refuse]⟩))
      | none => exact .inr (.inr (.inr ⟨h1, trivial, rfl, rfl, rfl, by simp⟩))
  · exact .inr (.inl ⟨h2, by simp [Option.isSome_iff_ne_none, h2]⟩)

end Sys2Proof.Machine
end

