-- ==== Sys2Proof/Laws/Queue.lean ====
section
/-! SUPPORT. What the claim queue's operations can do to its list and its counts. -/

namespace Sys2Proof.Machine

/-! ### Places -/

/-- A new entry stands with the others, wherever its priority puts it. -/
theorem insertEntry_perm (e : Entry) (l : List Entry) : (insertEntry e l).Perm (e :: l) := by
  induction l with
  | nil => exact List.Perm.refl _
  | cons x l ih =>
    rw [insertEntry]
    split
    · exact (ih.cons x).trans (List.Perm.swap e x l)
    · exact List.Perm.refl _

@[simp] theorem mem_insertEntry {e x : Entry} {l : List Entry} : x ∈ insertEntry e l ↔ x = e ∨ x ∈ l := by
  rw [(insertEntry_perm e l).mem_iff, List.mem_cons]

@[simp] theorem insertEntry_length (e : Entry) (l : List Entry) : (insertEntry e l).length = l.length + 1 :=
  (insertEntry_perm e l).length_eq

/-- The list stays in priority order. -/
theorem insertEntry_ordered (e : Entry) {l : List Entry} (h : l.Pairwise fun a b => a.prio ≤ b.prio) :
    (insertEntry e l).Pairwise fun a b => a.prio ≤ b.prio := by
  induction l with
  | nil => simp [insertEntry]
  | cons x l ih =>
    obtain ⟨hx, hl⟩ := List.pairwise_cons.1 h
    rw [insertEntry]
    split
    · next hle =>
      refine List.pairwise_cons.2 ⟨fun y hy => ?_, ih hl⟩
      rcases mem_insertEntry.1 hy with rfl | hy
      · exact hle
      · exact hx y hy
    · next hgt =>
      refine List.pairwise_cons.2 ⟨fun y hy => ?_, h⟩
      rcases List.mem_cons.1 hy with rfl | hy
      · omega
      · exact le_trans (by omega) (hx y hy)

/-- The new entry is QUEUED, so the IN FLIGHT entries stay as they were. -/
theorem insertEntry_inFlight (e : Entry) (h : e.inFlight = false) (l : List Entry) :
    (insertEntry e l).filter Entry.inFlight = l.filter Entry.inFlight := by
  induction l with
  | nil => simp [insertEntry, h]
  | cons x l ih =>
    rw [insertEntry]
    split
    · rw [List.filter_cons, List.filter_cons, ih]
    · rw [List.filter_cons]; simp [h]

/-! ### Counts -/

@[simp] theorem Cq.count_entries (q : Cq) (src : Source) (k : KeyCount) : (q.count src k).entries = q.entries := by
  cases src <;> rfl

@[simp] theorem Cq.count_nextOrder (q : Cq) (src : Source) (k : KeyCount) :
    (q.count src k).nextOrder = q.nextOrder := by
  cases src <;> rfl

@[simp] theorem Cq.count_companion (q : Cq) (t : Byte) (k : KeyCount) : q.count (.companion t) k = q := rfl

/-! ### Admission and coalescing -/

/-- Admission puts the request in its place, or turns it away at eight entries. -/
theorem Cq.enrol_cases (q : Cq) (src : Source) (prio : Nat) (req : Request) (out : List Report) :
    (q.entries.length < 8 ∧ q.enrol src prio req out =
      ⟨{ q with entries := insertEntry ⟨src, prio, req, 0, 0, false, q.nextOrder⟩ q.entries,
                nextOrder := q.nextOrder + 1 }, true, out⟩) ∨
    (8 ≤ q.entries.length ∧ q.enrol src prio req out = ⟨q.count src .dropped, false, out⟩) := by
  unfold Cq.enrol
  by_cases h : q.entries.length < Config.maxEntries
  · exact .inl ⟨h, if_pos h⟩
  · exact .inr ⟨by simpa [Config.maxEntries] using h, if_neg h⟩

/-- The latest-admitted QUEUED entry that satisfies a test stands in the list, is QUEUED and satisfies it. -/
theorem latestQueued_some {p : Request → Bool} {l : List Entry} {e : Entry} (h : latestQueued p l = some e) :
    e ∈ l ∧ e.inFlight = false ∧ p e.req = true := by
  have aux : ∀ (l : List Entry) (b : Option Entry) (e : Entry),
      l.foldl (fun best e =>
        if !e.inFlight && p e.req then
          match best with
          | none => some e
          | some b => if b.order ≤ e.order then some e else some b
        else best) b = some e → b = some e ∨ (e ∈ l ∧ e.inFlight = false ∧ p e.req = true) := by
    intro l
    induction l with
    | nil => intro b e h; exact .inl h
    | cons x l ih =>
      intro b e h
      rw [List.foldl_cons] at h
      rcases ih _ _ h with h2 | ⟨h2, h3⟩
      · by_cases hx : (!x.inFlight && p x.req) = true
        · have hx2 : x.inFlight = false ∧ p x.req = true := by simpa using hx
          rw [if_pos hx] at h2
          cases b with
          | none =>
            obtain rfl : x = e := by simpa using h2
            exact .inr ⟨List.mem_cons_self, hx2⟩
          | some b =>
            simp only at h2
            split at h2
            · obtain rfl : x = e := by simpa using h2
              exact .inr ⟨List.mem_cons_self, hx2⟩
            · exact .inl h2
        · rw [if_neg hx] at h2
          exact .inl h2
      · exact .inr ⟨List.mem_cons_of_mem _ h2, h3⟩
  rcases aux l none e h with h2 | h2
  · exact absurd h2 (by simp)
  · exact h2

/-! ### The IN FLIGHT entry -/

/-- An entry that returns to QUEUED leaves nothing IN FLIGHT, and every entry otherwise as it was. -/
theorem Cq.land_eq (q : Cq) :
    q.land.entries = q.entries.map (fun e => { e with inFlight := false }) ∧ q.land.counts = q.counts ∧
      q.land.nextOrder = q.nextOrder := ⟨rfl, rfl, rfl⟩

/-- SETTLED removes the IN FLIGHT entries. -/
theorem Cq.sent_cases (q : Cq) :
    (q.flying = none ∧ q.sent = (q, [])) ∨
    (∃ e, q.flying = some e ∧ q.sent.1.entries = q.entries.filter (fun x => !x.inFlight) ∧
      q.sent.2 = outcomeReport e.source .sent) := by
  unfold Cq.sent
  cases h : q.flying with
  | none => exact .inl ⟨rfl, rfl⟩
  | some e => exact .inr ⟨e, rfl, by simp, rfl⟩

/-- VOID counts an attempt, or removes the entry as FAILED at the fourth. -/
theorem Cq.void_cases (q : Cq) :
    (q.flying = none ∧ q.void = (q, [])) ∨
    (∃ e, q.flying = some e ∧ 3 ≤ e.attempts ∧ q.void.1.entries = q.entries.filter (fun x => !x.inFlight) ∧
      q.void.2 = outcomeReport e.source .failed) ∨
    (∃ e, q.flying = some e ∧ e.attempts < 3 ∧ q.void.2 = [] ∧ q.void.1.counts = q.counts ∧
      q.void.1.entries = q.entries.map fun x =>
        if x.inFlight then { x with inFlight := false, attempts := x.attempts + 1 } else x) := by
  unfold Cq.void
  cases h : q.flying with
  | none => exact .inl ⟨rfl, rfl⟩
  | some e =>
    by_cases h2 : Config.maxAttempts ≤ e.attempts + 1
    · exact .inr (.inl ⟨e, rfl, by simpa [Config.maxAttempts] using h2, by simp [h2], by simp [h2]⟩)
    · exact .inr (.inr ⟨e, rfl, by simpa [Config.maxAttempts] using h2, by simp [h2], by simp [h2], by simp [h2]⟩)

end Sys2Proof.Machine
end

