-- ==== Sys2Proof/Tests/Slice0.lean ====
section
/-! SUPPORT. The model's own tests: a smoke test of each well-formedness check, small tests of the commands against the
spec's worked examples, and a witness that the hypotheses of each statement can be met. -/

namespace Sys2Proof.Tests

open Sys2Proof Sys2Proof.Machine

-- One theorem at a time: each would otherwise take a thread of its own.
set_option Elab.async false

/-! ### Sample states -/

/-- Station 5: zones 2 (DIM0, DIM1) and 7 (DIM2) tracked, DIM3 unassigned; key 0 TOGGLE-DIM, 1 SCENE, 2 OCCUPY, 3 LEVEL.
-/
def conf : Configuration where
  number := 5
  widthCode := 4
  frameLength := 200
  restatement := 4
  staleness := 16
  longPress := 8
  failDelay := 1
  failLevel := 512
  failFade := 2
  outputs := #v[⟨some 2, false, 4, 0⟩, ⟨some 2, true, 4, 2⟩, ⟨some 7, false, 4, 3⟩, ⟨none, false, 1, 0⟩]
  keys := #v[⟨.toggleDim, false, 2, 1, 3, 64, 4⟩, ⟨.scene, false, 3, 2, 3, 0, 9⟩, ⟨.occupy, false, 7, 3, 2, 1124, 3⟩,
    ⟨.level, true, 2, 4, 3, 400, 5⟩]

/-- The sample station in a running state, framed, in a frame whose claim field lies ahead. -/
def at_ (st : StationState) : State :=
  { State.reset with
    cl := ⟨.held, [], some conf⟩
    mu := { Mu.cold with station := st, members := Mu.cold.members.set 5 (ownRecord conf st) }
    lc := { Lc.cold with framed := st.reading, running := 100000, timer := 50, count := 42, measured := 1000000 }
    msu := { Msu.cold with frame := .cleared (if st.reading then .claim else .noFrame) }
    ou := .published conf }

/-- A state that comes before a configuration. -/
def early (st : StationState) (l : LoadState) : State :=
  { State.reset with mu := { Mu.cold with station := st }, cl := ⟨l, [], none⟩ }

/-- The state after a command, or the state before it where there is none. -/
def after (c : Instr) (s : State) : State :=
  match exec c s with
  | .next t => t
  | _ => s

/-- A claim-queue entry of the sample station. -/
def entry (src : Source) (prio : Nat) (r : Request) (order : Nat) : Entry := ⟨src, prio, r, 0, 0, false, order⟩

/-- The sample station with the given entries waiting. -/
def queued (st : StationState) (l : List Entry) : State := (at_ st).setCq { (at_ st).cq with entries := l, nextOrder := 20 }

/-- A mark with KEY0 and KEY2 closed (KEY3, also high, is active-low). -/
def mark : MarkObs := ⟨0xD#4, [.key 0, .key 1, .key 2, .key 3, .frameEnd, .sweep], false, false, []⟩

/-- A valid block: station 9, cell width code 4, frame length 200, outputs 0 and 1 assigned to zone 3, all keys OFF
(section 10.8). -/
def block : List Byte :=
  let b : List Byte := [0xA6, 9, 4, 200, 4, 16, 8, 1, 0x0A, 0x00, 0x83, 0, 0x83, 0, 0, 0, 0, 0] ++ List.replicate 20 0
  b ++ [checkCode (bitsOfBytes b)]

/-! ### Well-formedness: each check refuses an ill-formed command -/

theorem test_wf_block_empty : (Instr.memoryReadEnd []).wellFormed = false := by decide
theorem test_wf_block_long : (Instr.memoryReadEnd (List.replicate 40 0)).wellFormed = false := by decide
theorem test_wf_body : (Instr.send 0 (List.replicate 49 0)).wellFormed = false := by decide
theorem test_wf_order_missing : (Instr.frameMark ⟨0, [.key 0, .key 1, .key 2, .key 3, .key 0, .sweep], false, false, []⟩).wellFormed = false := by
  decide
theorem test_wf_order_swept : (Instr.frameMark ⟨0, [.sweep, .frameEnd, .key 0, .key 1, .key 2, .key 3], false, false, []⟩).wellFormed = false := by
  decide
theorem test_wf_order_long : (Instr.founding { mark with queueOrder := .sweep :: mark.queueOrder }).wellFormed = false := by
  decide
theorem test_wf_transition : (Instr.cellStart ⟨true, 5, true, true, 1, 0⟩).wellFormed = false := by decide
theorem test_wf_rest : (Instr.cellStart ⟨false, 5, true, true, 6, 0⟩).wellFormed = false := by decide
theorem test_wf_since : (Instr.cellStart ⟨false, 5, true, true, 0, 6⟩).wellFormed = false ∧
    (Instr.stuckPull ⟨9, 5, 6⟩ []).wellFormed = false := by decide
theorem test_wf_stale : (Instr.stale 8).wellFormed = false := by decide
theorem test_wf_count : (Instr.countField (List.replicate 9 true) []).wellFormed = false := by decide
theorem test_wf_claim : (Instr.claimField (List.replicate 9 true) []).wellFormed = false := by decide
theorem test_wf_message : (Instr.message (List.replicate 70 true) true []).wellFormed = false := by decide
theorem test_wf_accepts : ([.memoryReadEnd block, .memoryReadEnd [0xA6], .frameMark mark, .cellStart ⟨false, 100000, true, true, 0, 0⟩, .stale 7,
    .send 0 (List.replicate 48 0)] : List Instr).all Instr.wellFormed = true := by decide +kernel

/-! ### Formats -/

/-- R210: "A LEVEL for zone 2 with fade code 3 and level 1023 has the data bytes 23h, FFh and C0h." -/
theorem test_level_bytes : bytesOfBits 3 (Msg.level 2 3 1023).bits = [0x23, 0xFF, 0xC0] := by decide
/-- R58 by hand: a 1 agrees with the leftmost place, so the places only move; a 0 differs, so the last three are then
inverted. -/
theorem test_check_first_bits : checkFrom 0xFF [true] = 0xFE ∧ checkFrom 0xFF [false] = 0xF9 := by decide
/-- R212: QUERY STATION with tag 7 is C5h, length 2, 03h, 07h and the check F4h that makes the sum 0. -/
theorem test_frame_bytes : frameBytes 3 7 [] = [0xC5, 2, 3, 7, 0xF4] := by decide
/-- R213: the frame of a ZONE report is 12 bytes, and of a COMMIT of a ZONE STATEMENT 16. -/
theorem test_report_frames : (Queued.frame ⟨.zone 3 .aged 1023 5, 0, 0⟩).length = 12 ∧
    (Queued.frame ⟨.commit 0 0 7 (bytesOfBits 7 (Msg.zoneStatement 1 2 3 4 5).bits), 0, 0⟩).length = 16 := by decide
/-- Section 10.8: a memory that reads FFh in byte 0 has fault index 0. -/
theorem test_fault_index_open : faultIndex (List.replicate 39 0xFF) = some 0 := by decide +kernel
theorem test_fault_index_valid : faultIndex block = none ∧ (readBlock block).number = 9 ∧
    (readBlock block).trackedSet = 8#16 := by decide +kernel

/-! ### Resets and configuration -/

theorem test_cold_reset : after .coldReset (at_ .active) = State.reset := by decide +kernel
theorem test_reset_end : (after .resetEnd State.reset).station = .loading ∧
    (after .resetEnd State.reset).cl.load = .reading := by decide
/-- Section 10.8, a luminaire with a good memory. -/
theorem test_good_memory : (after (.memoryReadEnd block) (early .loading .reading)).station = .listening ∧
    (after (.memoryReadEnd block) (early .loading .reading)).conf.tracks 3 = true := by decide +kernel
/-- Section 10.8, a wall plate: byte 0 reads FFh. -/
theorem test_bad_memory : (after (.memoryReadEnd (List.replicate 39 0xFF)) (early .loading .reading)).station =
    .unconfigured := by decide +kernel
/-- R198, R199: some of the bytes fill the buffer, and the rest end the read; MDOUT shows 03h first, and is low while the block
is clocked in. -/
theorem test_memory_in_parts : (after (.memoryReadEnd (block.take 20)) (early .loading .reading)).cl.buffer = block.take 20 ∧
    (after (.memoryReadEnd (block.drop 20)) (after (.memoryReadEnd (block.take 20)) (early .loading .reading))).station =
      .listening := by decide +kernel
theorem test_memory_pins : (early .loading .reading).cl.pins = (.low, .clocking, .carries
      ([false, false, false, false, false, false, true, true] ++ List.replicate 328 false)) ∧
    (after (.memoryReadEnd [0xA6]) (early .loading .reading)).cl.pins =
      (.low, .clocking, .carries (List.replicate 304 false)) ∧ (at_ .active).cl.pins = (.high, .low, .low) := by decide +kernel
/-- Section 10.8: cell width code 0 is refused with index 2. -/
theorem test_configure_refused : (after (.configure 1 (block.set 2 0)) (early .unconfigured .empty)).cp.slot =
    some ⟨0x82, 1, [3, 2]⟩ := by decide +kernel
theorem test_configure_again : (after (.configure 1 block) (at_ .listening)).cp.slot = some ⟨0x82, 1, [5, 0]⟩ := by
  decide +kernel

/-! ### The companion port -/

theorem test_byte_start : (after (.byteReceived 0xC5 true) (at_ .active)).cp.assembler.phase = .length := by decide
theorem test_byte_bad_length : (after (.byteReceived 51 true) ((at_ .active).setAssembler ⟨.length, 0, [], 0⟩)).cp.slot =
    some ⟨0x83, 0, []⟩ := by decide
theorem test_gap : (after .frameGapTimeout ((at_ .active).setAssembler ⟨.collect, 3, [1], 4⟩)).cp.assembler = .hunting := by
  decide
/-- Section 9.10: a TOGGLE over a QUEUED TOGGLE leaves 0 entries and cancels both, the older first. -/
theorem test_send_toggle : (after (.send 41 [2, 2, 0x20])
      ((queued .active [entry (.companion 40) 2 (.toggle 2 0) 3]).setCp { Cp.cold with sending := some ⟨false, []⟩, seq := 13 })).cp
    = { Cp.cold with sending := some ⟨false, []⟩, slot := some ⟨0x81, 41, [0]⟩, seq := 15,
                     queue := [⟨.outcome 40 .cancelled, 0, 13⟩, ⟨.outcome 41 .cancelled, 0, 14⟩] } := by decide +kernel
/-- R84: −40 over a QUEUED +40 removes the entry. -/
theorem test_send_step : (after (.send 1 [2, 1, 0x2F, 0x60]) (queued .active [entry (.companion 9) 2 (.step 2 40) 3])).cq.entries
    = [] := by decide +kernel
theorem test_query_station : ((after (.queryStation 7 []) (at_ .active)).cp.slot.map fun r => r.body.take 6) =
    some [4, 5, 1, 42, 0, 0] := by decide +kernel
theorem test_query_zone_dead : ((after (.queryZone 7 [3]) (at_ .active)).cp.slot.map fun r => r.body) =
    some (3 :: List.replicate 15 0) := by decide +kernel
theorem test_query_zone_live : ((after (.queryZone 7 [2]) (at_ .active)).cp.slot.map fun r => r.body) =
    some [0xC2, 0, 0, 0, 0, 0, 0, 3, 0xFF, 0, 0, 0, 0, 0, 0, 3] := by decide +kernel
theorem test_query_members : ((after (.queryMembers 7 [0]) (at_ .active)).cp.slot.map fun r => (r.body.take 5, r.body.length)) =
    some ([0, 0, 32, 0, 0], 37) := by decide +kernel
theorem test_query_scene : ((after (.queryScene 7 [3]) (at_ .active)).cp.slot.map fun r => r.body) =
    some [3, 0, 2, 0, 0, 0, 7, 0, 0, 0] := by decide +kernel
theorem test_subscribe : (after (.subscribe 7 [21]) (at_ .active)).cp.subs = 21#5 := by decide
theorem test_restart : (after (.restart 60 []) (at_ .lineFault)).cp.restart = true := by decide
/-- Section 9.10: after the ACCEPT of a RESTART the STATE report has sequence number 0. -/
theorem test_warm_restart : (after .frameTransmitted (after (.restart 60 []) ((at_ .lineFault).setCp
      { Cp.cold with subs := 4#5 }))).cp.sending = some ⟨false, frameBytes 0x92 0 [0, 3, 12]⟩ := by decide +kernel
theorem test_reply_ends : (after .frameTransmitted (after (.queryStation 7 []) (at_ .active))).cp.sending = none := by
  decide +kernel

/-! ### Cells and line faults -/

theorem test_cell_tick : (after (.cellStart ⟨false, 100000, true, true, 0, 0⟩) (at_ .muted)).lc.drive = ⟨true, false, false⟩ := by
  decide +kernel
theorem test_cell_silent : (after (.cellStart ⟨false, 100000, true, true, 0, 0⟩) (at_ .listening)).lc.drive = .released := by
  decide +kernel
theorem test_stuck_pull : (after (.stuckPull ⟨300001, 5, 0⟩ []) (at_ .active)).station = .lineFault := by decide +kernel
theorem test_pull_not_stuck : (after (.stuckPull ⟨300000, 5, 0⟩ []) (at_ .active)).station = .active := by decide +kernel
/-- R25: a line already PULLED at the entry to LISTENING is measured from it, here 250 µs before. -/
theorem test_pull_from_entry : (after (.stuckPull ⟨900000, 50000, 0⟩ [])
    ((at_ .listening).setLc { (at_ .listening).lc with measured := 200000 })).station = .listening := by decide +kernel
/-- R25, R28: after a warm restart the pull is measured from the restart, here 300 µs before in a cell that began 400 µs before
and with the line PULLED for 390 µs; 1 ns later it is stuck. -/
theorem test_pull_from_restart :
    let s := (at_ .listening).setLc { (at_ .listening).lc with measured := 0, fresh := true }
    (after (.stuckPull ⟨390000, 400000, 300000⟩ []) s).station = .listening ∧
    (after (.stuckPull ⟨390001, 400001, 300001⟩ []) s).station = .lineFault := by decide +kernel
/-- R35: the silence stands one short of three frames of 200 cells, with 40 µs of the next own width counted before this cell;
a transition 60 µs and 1 ns into the cell comes after the threshold, and the station founds in the cell that it begins; 1 ns
earlier it takes the founding back. -/
theorem test_threshold_first :
    let s := (at_ .listening).setLc { (at_ .listening).lc with silence := 599, silencePart := 40000 }
    let late := after (.cellStart ⟨true, 60001, true, true, 0, 0⟩) s
    late.lc.silence = 600 ∧ (after (.frameMark mark) late).station = .listening ∧
    (after (.founding mark) late).station = .active ∧ (after (.founding mark) late).lc.drive = .whole ∧
    (after (.cellStart ⟨true, 60000, true, true, 0, 0⟩) s).lc.silence = 0 := by decide +kernel
theorem test_line_clear : (after .lineClear ((at_ .lineFault).setLc { (at_ .lineFault).lc with clear := 32 })).station =
    .listening := by decide +kernel

/-! ### Marks -/

/-- A ticking station whose timer stands at its frame length. -/
def expiring (s : State) : State := s.setLc { s.lc with timer := 200 }

theorem test_issue : (after (.frameTimerExpiry mark) (expiring (at_ .active))).lc.count = 43 := by decide +kernel
/-- R13, R14: a transition in cell 0 of an issued mark, where the own pull has failed, starts no cell, before the mark is taken
and after it; the timer of a LISTENING station that has stopped at the own frame length is no mark. -/
theorem test_issued_mark_holds :
    let pulse : Instr := .cellStart ⟨true, 30000, true, true, 0, 0⟩
    let s := expiring (at_ .active)
    (after pulse s).lc.running = s.lc.running ∧ (after pulse s).ou = s.ou ∧ (after pulse s).lc.markable = false ∧
    (after pulse (after (.frameTimerExpiry mark) s)).lc.timer = 0 ∧
    (after pulse (expiring (at_ .listening))).lc.markable = true := by decide +kernel
theorem test_join : (after (.frameMark mark) (((at_ .listening).setLc { (at_ .listening).lc with markable := true, countRead := true }).setMu
    { (at_ .listening).mu with pairHeld := true, ownFree := true })).station = .active := by decide +kernel
/-- R88: a LEVEL key's offer at a mark that cuts a message short, taken before and after the CUT SHORT: the entry IN FLIGHT is
not compared, or is replaced. -/
theorem test_cut_and_offer :
    let s := (((at_ .active).setLc { (at_ .active).lc with markable := true }).setCq
      { Cq.cold with entries := [⟨.companion 7, 2, .toggle 2 0, 0, 0, true, 0⟩], nextOrder := 1 }).setMsu
      { Msu.cold with frame := { FrameRecord.cleared .message with role := .originator, presenter := some .queue } }
    let k := s.setKu ⟨s.ku.channels.set 3 ⟨some true, false, 0, false, 0, false⟩⟩
    let cq := fun l : List QueueTask => (after (.frameMark ⟨0#4, l, false, false, []⟩) k).cq.entries.map Entry.req
    cq [.key 3, .frameEnd, .sweep, .key 0, .key 1, .key 2] = [.toggle 2 0, .level 2 3 400] ∧
    cq [.frameEnd, .key 3, .sweep, .key 0, .key 1, .key 2] = [.level 2 3 400] := by decide +kernel
theorem test_local_mark : (after (.localFrameMark mark) (expiring (at_ .lineFault))).ze.failsafe = 1 := by decide +kernel
theorem test_founding : (after (.founding mark) ((at_ .listening).setLc { (at_ .listening).lc with silence := 600 })).lc.count =
    0 := by decide +kernel

/-! ### Zones, queue and keys -/

/-- A zone record in the middle of a fade. -/
def fading (t c f l : Nat) : ZoneRecord := { ZoneRecord.cold with target := t, current := c, fade := f, lastOn := l }

/-- Section 5.4, a fade overtaken by a step: 127 after the first step, 493 after the overtaking one. -/
theorem test_fade_overtaken : ((ZoneRecord.cold.levelChange 1023 3).fadeStep).current = 127 ∧
    (((fading 1023 383 5 1023).applyStep (-200)).fadeStep) = fading 823 493 3 823 := by decide
/-- R114: 10 down to 0 over 4 steps passes 8, 6, 3, 0. -/
theorem test_fade_down : ([1, 2, 3, 4].map fun n => (Nat.iterate ZoneRecord.fadeStep n (fading 0 10 4 10)).current) =
    [8, 6, 3, 0] := by decide

/-- The sample station with a record in zone 2. -/
def zoned (st : StationState) (r : ZoneRecord) : State := (at_ st).setZe { (at_ st).ze with zones := (at_ st).ze.zones.set 2 r }

theorem test_fade_end : (after (.fadeEnd 2) (zoned .active (fading 9 4 1 9))).ze.zones[2] = fading 9 9 0 9 := by decide +kernel
theorem test_hold_expiry : (after (.holdExpiry 2) (zoned .active { fading 9 9 0 9 with hold := some ⟨1, 0, 0⟩ })).ze.zones[2] =
    fading 0 0 0 9 := by decide +kernel
theorem test_failsafe : (after .failsafe ((at_ .lineFault).setZe { (at_ .lineFault).ze with failsafe := 7 })).ze.zones[7] =
    fading 512 0 4 512 := by decide +kernel
theorem test_stale : (after (.stale 0) (queued .muted [{ entry (.key 1) 2 (.recall 3 0) 1 with age := 15 }])).cq.counts[1] =
    ⟨0, 0, 1, 0⟩ := by decide +kernel

/-- Section 8.9: a press that has lasted 7 marks. -/
def pressed (st : StationState) (k : Fin 4) (c : KeyChannel) : State := (at_ st).setKu ⟨(at_ st).ku.channels.set k c⟩

theorem test_long_press : (after (.longPress 0) (pressed .active 0 ⟨some true, true, 7, false, 0, false⟩)).cq.entries =
    [⟨.key 0, 1, .step 2 64, 0, 0, false, 0⟩] := by decide +kernel
theorem test_repeat_down : (after (.repeatDue 0) (pressed .active 0 ⟨some true, true, 11, true, 3, true⟩)).cq.entries =
    [⟨.key 0, 1, .step 2 (-64), 0, 0, false, 0⟩] := by decide +kernel

/-! ### Fields -/

/-- The sample station before cell `k`. -/
def beforeCell (st : StationState) (k : Nat) : State := (at_ st).setLc { (at_ st).lc with nextCell := k }

/-- Section 1.5, three counts meet: station A with 42 reads 40 and takes a slip. -/
theorem test_counts_meet : (after (.countField (bitsOfByte 40) []) (beforeCell .active 3)).lc.count = 40 ∧
    (after (.countField (bitsOfByte 40) []) (beforeCell .active 3)).lc.slips = 1 := by decide +kernel
/-- The same count field at a MUTED station: no slip. -/
theorem test_counts_muted : (after (.countField (bitsOfByte 40) []) (beforeCell .muted 3)).lc.slips = 0 := by decide +kernel
/-- R6, R19: a drive fault in cell 10 that mutes the station raises a bit of V; the station, ACTIVE at the cell's start, slips. -/
theorem test_muting_slip :
    let s := ((beforeCell .active 10).setLc { (beforeCell .active 10).lc with countBits := (bitsOfByte 42).take 7 }).setMu
      { (at_ .active).mu with score := 60 }
    (after (.countField [true] []) s).station = .muted ∧ (after (.countField [true] []) s).lc.slips = 1 ∧
      (after (.countField [true] []) s).lc.count = 43 := by decide +kernel
/-- Section 2.3: index 19 becomes PRESENT at its first PULLED reading. -/
theorem test_presence : (after (.presenceCell false []) ((beforeCell .listening 11).setLc
    { (beforeCell .listening 11).lc with countRead := true, count := 19 })).mu.members[19] = ⟨true, 0, 0⟩ := by decide +kernel
theorem test_empty_claim : (after (.claimField (List.replicate 8 true) []) (beforeCell .active 12)).msu.frame.phase =
    .noMessage := by decide +kernel
theorem test_won_claim : (after (.claimField (bitsOfByte (claimByte 2 5)) [])
    ((queued .active [entry (.key 0) 2 (.toggle 1 0) 1]).setLc (beforeCell .active 12).lc)).msu.frame.role = .originator := by
  decide +kernel

/-- The sample station in the middle of another station's message: a LEVEL for zone 2 claimed by (1, 3). -/
def receiving (st : StationState) (score k : Nat) (cells : List Bool) (fault : Bool) : State :=
  ((beforeCell st k).setMsu { Msu.cold with
    frame := { FrameRecord.cleared .message with
      claim := 0x23, cells := cells, check := checkCode (bitsOfByte 0x23), faultFound := fault } }).setMu
    { (at_ st).mu with score := score }

/-- The sample station in the middle of its own message. -/
def originating (st : StationState) (score k : Nat) (p : Presenter) (m : Msg) (sent : Nat) : State :=
  let stream := streamOf (checkCode (bitsOfByte (claimByte 2 5))) m
  ((beforeCell st k).setMsu { Msu.cold with
    frame := { FrameRecord.cleared .message with
      role := .originator, claim := claimByte 2 5, stream := stream, presenter := some p,
      cells := (stream ++ List.replicate 69 true).take sent } }).setMu { (at_ st).mu with score := score }

/-- Section 3.11: a check fault at a MUTED station with score 40 is DISCARDED, score 41, zone 2 unverified. -/
theorem test_discarded : (after (.vetoCell true true []) (receiving .muted 40 89 (List.replicate 69 true) true)).mu.score = 41 ∧
    (after (.vetoCell true true []) (receiving .muted 40 89 (List.replicate 69 true) true)).msu.frame.result =
      some .discarded := by decide +kernel
/-- Section 3.11: an ACTIVE station that vetoes takes 1. -/
theorem test_vetoed : (after (.vetoCell false true []) (receiving .active 0 89 (List.replicate 69 true) true)).mu.score = 1 := by
  decide +kernel
/-- Section 3.11, two originators: B reads PULLED where it sent 1 in cell 22; at score 60 it is MUTED. -/
theorem test_mismatch : (after (.message [false] true []) (originating .active 60 22 .queue (.toggle 1 0) 2)).station = .muted := by
  decide +kernel
/-- A LEVEL received whole settles at the veto cell. -/
theorem test_settles : ((after (.vetoCell true true []) (after (.message
      (streamOf (checkCode (bitsOfByte 0x23)) (.level 2 3 1023) ++ List.replicate 33 true) true [])
      (receiving .active 0 20 [] false))).msu.slot.map fun x => (x.kind, bytesOfBits 3 x.bits)) =
    some (0, [0x23, 0xFF, 0xC0]) := by decide +kernel

/-! ### Outputs: section 7.8 -/

/-- Level 614 on a basis of 200 cells with divider 4: DIM1 (quarter 2) wraps, so it is asserted at the period's start
and at 25 cells, and not between. -/
theorem test_wrapped_interval : ([0, 5, 6, 24, 25, 49].map fun n => (conf.outputs[1]).asserted 200 614 (n * 32736)) =
    [true, true, false, false, true, true] := by decide +kernel
theorem test_period_start : (after (.outputPeriodStart 0 1) ((at_ .active).setOu ⟨Vector.replicate 4 614, some 200, 49 * 32736, 50⟩)).ou.position
    = 50 * 32736 := by decide +kernel
theorem test_pulse_edge : (after (.pulseEdge 2 (37 * 32736 + 16368)) ((at_ .active).setOu
    ⟨Vector.replicate 4 614, some 200, 37 * 32736 + 4092, 38⟩)).ou.position = 37 * 32736 + 16368 := by decide +kernel

/-! ### Witnesses: for each statement, states and operands that meet its hypotheses -/

theorem witness_StepRunsFrontCommand :
    (State.reset.setPending [.coldReset, .resetEnd]).pending = .coldReset :: [.resetEnd] := rfl

/-- The membership invariant of a state that comes before a configuration. -/
theorem early_membersOk (st : StationState) (l : LoadState) (h : st.unready = true) : MembersOk (early st l) where
  score := by show 0 ≤ 255; omega
  active := fun _ => by show 0 < 64; omega
  own := by
    have hst : (st == StationState.active) = false := by cases st <;> simp_all [StationState.unready]
    show Mu.cold.members[(0 : Fin 32)] = ⟨st == .active, 0, Configuration.blank.trackedSet⟩
    rw [hst]
    decide
  others := fun i _ _ => by
    show (Vector.replicate 32 Member.absent)[i] = .absent
    simp
  unready := fun _ => ⟨rfl, rfl, fun i => by
    show (Vector.replicate 32 Member.absent)[i] = .absent
    simp⟩

theorem witness_StartUpWithoutABlock : MembersOk State.reset ∧ State.reset.station = .reset ∧
    MembersOk (early .loading .reading) ∧ (early .loading .reading).station = .loading ∧
    (early .loading .reading).cl.load = .reading ∧ ((early .loading .reading).cl.buffer ++ block.take 38).length < 39 ∧
    (early .loading .reading).cl.buffer.length ≤ 39 ∧ 39 ≤ ((early .loading .reading).cl.buffer ++ block.set 2 0).length ∧
    faultIndex (((early .loading .reading).cl.buffer ++ block.set 2 0).take 39) = some 2 :=
  ⟨early_membersOk .reset .idle rfl, rfl, early_membersOk .loading .reading rfl, rfl, rfl, by decide +kernel, by decide,
    by decide +kernel, by decide +kernel⟩

/-- The sample station with part of its block read. -/
def partRead : State := after (.memoryReadEnd (block.take 38)) (early .loading .reading)

/-- The memory port's three cases: before the first byte of a read, within it, and outside a read. -/
theorem witness_StartUpWithoutABlock_pins : (early .loading .reading).cl.buffer = [] ∧ partRead.cl.load = .reading ∧
    partRead.cl.buffer ≠ [] ∧ (at_ .active).cl.load ≠ .reading := by decide +kernel

theorem witness_ValidReadIsPublished : partRead.station = .loading ∧ partRead.cl.load = .reading ∧
    partRead.cl.buffer.length ≤ 39 ∧ 39 ≤ (partRead.cl.buffer ++ block.drop 38).length ∧
    faultIndex ((partRead.cl.buffer ++ block.drop 38).take 39) = none := by decide +kernel

theorem witness_FaultIndexIsTheLowestByteAtFault :
    (List.replicate 39 (0 : Byte)).length = 39 ∧ (List.replicate 39 (0 : Byte)).getD 0 0#8 ≠ 0xA6#8 ∧
    (block.set 38 0).length = 39 ∧ (∀ j < 38, byteFault (block.set 38 0) j = false) ∧
    (block.set 38 0).getD 38 0#8 ≠ checkCode (bitsOfBytes ((block.set 38 0).take 38)) := by decide +kernel

/-- A valid block of the memory, whose key record 0 is then given each function. -/
theorem witness_FaultIndexIsTheLowestByteAtFault_ranges : block.length = 39 ∧ faultIndex block = none ∧
    (∀ j < 39, byteFault block j = false) ∧ (0 : Nat) / 32 = 0 ∧
    ((block.set 18 0x3F).getD 18 0#8).toNat / 32 = 1 ∧ ((block.set 18 0x5F).getD 18 0#8).toNat / 32 = 2 ∧
    ((block.set 18 0x9F).getD 18 0#8).toNat / 32 = 4 := by decide +kernel

theorem witness_ConfigurePublishesAfterItsAccept : (early .unconfigured .empty).station = .unconfigured ∧
    (early .unconfigured .empty).cp.slot = none ∧ block.length = 39 ∧ faultIndex block = none := by decide +kernel

theorem witness_ReceivedFrameIsItsRequest : (at_ .active).station ≠ .reset ∧ (at_ .active).cp.assembler.phase = .hunt ∧
    (List.replicate 48 (0 : Byte)).length ≤ 48 ∧ (at_ .active).cp.slot = none ∧ 8 < (9 : Byte).toNat ∧
    (after (.queryStation 7 []) (at_ .active)).cp.slot ≠ none := by decide +kernel

/-- The SEND bodies of the right length and next to it, for the longest and the shortest kinds and an unknown one. -/
theorem witness_RequestsAreTestedInOrder_lengths : rightLength .send [0, 0, 0, 0, 0] ∧ ¬rightLength .send [0, 0, 0, 0] ∧
    rightLength .send [0, 5, 0x30] ∧ ¬rightLength .send [0, 5, 0x30, 0] ∧ rightLength .send [0, 7] ∧ ¬rightLength .send [0] ∧
    rightLength .queryScene [1] ∧ ¬rightLength .queryScene [] ∧ rightLength .restart [] ∧ ¬rightLength .configure [] := by
  simp [rightLength]

/-- A state with the assembler as given. -/
def assembling (a : Assembler) : State := (at_ .active).setAssembler a

theorem witness_BadFramesAreDropped : (assembling ⟨.length, 0, [], 0⟩).station ≠ .reset ∧
    (assembling ⟨.length, 0, [], 0⟩).cp.assembler.phase = .length ∧ (1 : Byte).toNat < 2 ∧ 50 < (51 : Byte).toNat ∧
    (assembling ⟨.collect, 2, [3, 0], 5⟩).cp.assembler.phase = .collect ∧
    (assembling ⟨.collect, 2, [3, 0], 5⟩).cp.assembler.need ≤ (assembling ⟨.collect, 2, [3, 0], 5⟩).cp.assembler.stored.length ∧
    (assembling ⟨.collect, 2, [3, 0], 5⟩).cp.assembler.sum + 1 ≠ 0#8 ∧
    (assembling ⟨.collect, 2, [3, 0], 5⟩).cp.slot = none ∧ (at_ .active).cp.assembler.phase = .hunt := by decide +kernel

/-- The sample station with a reply in its slot. -/
def replying (st : StationState) : State := after (.queryStation 7 []) (at_ st)

theorem witness_BadFramesAreDropped_full :
    ((replying .active).setAssembler ⟨.length, 0, [], 0⟩).cp.assembler.phase = .length ∧
    ((replying .active).setAssembler ⟨.length, 0, [], 0⟩).cp.slot ≠ none := by decide +kernel

theorem witness_FullSlotTurnsRequestsAway : (replying .active).station ≠ .reset ∧ (replying .active).cp.slot ≠ none ∧
    (RequestType.send, Instr.send 1 [2, 2, 0x20]) ∈ requestCommands 1 [2, 2, 0x20] := by decide +kernel

theorem witness_RequestsAreTestedInOrder :
    (early .loading .reading).station ≠ .reset ∧ (early .loading .reading).cp.slot = none ∧ ¬rightLength .restart [1] ∧
    ((early .loading .reading).station = .loading ∧ rightLength .restart []) ∧
    ((early .unconfigured .empty).station = .unconfigured ∧ rightLength .queryZone [15]) ∧
    ((at_ .lineFault).station.running = true ∧ rightLength .configure block) ∧
    (RequestType.fieldFault .subscribe [32] = some 0 ∧ rightLength .subscribe [32]) ∧
    (RequestType.fieldFault .queryMembers [2] = some 0 ∧ (at_ .active).station.running = true) ∧
    (RequestType.fieldFault .configure (block.set 2 0) = some 2 ∧ rightLength .configure (block.set 2 0)) :=
  ⟨by decide, by decide, by simp [rightLength], ⟨rfl, rfl⟩, ⟨rfl, rfl⟩, ⟨rfl, rfl⟩, ⟨by decide, rfl⟩, ⟨by decide, rfl⟩,
    ⟨by decide +kernel, rfl⟩⟩

/-- Eight entries that wait. -/
def full : List Entry := (List.range 8).map fun n => entry (.companion 1) 2 (.capture 3) n

theorem witness_SendIsOfferedToTheQueue :
    (queued .active []).station.running = true ∧ (queued .active []).cp.slot = none ∧
    sendLengthOk [5, 2, 0xF0] = true ∧ sendFault [5, 2, 0xF0] = none ∧ sendRequest [5, 2, 0xF0] = some (.toggle 15 0) ∧
    ((queued .active []).cq.take (.companion 1) 5 (.toggle 15 0)).taken = true ∧
    ((queued .active full).cq.take (.companion 1) 5 (.toggle 15 0)).taken = false := by decide +kernel

theorem witness_SendBodyCarriesItsRequest : 5 ≤ 5 ∧ (Request.step 15 (-511)).InRange ∧ (Request.level 0 0 1023).InRange ∧
    (Request.capture 15).InRange := by
  refine ⟨le_refl 5, ?_, ?_, trivial⟩ <;> simp [Request.InRange, Request.toMsg, Msg.InRange]

/-- Each fault of a SEND at a value next to the range: priority 6, kind 7, STEP 0 and −512, and one spare bit of each kind. -/
theorem witness_SendBodyCarriesItsRequest_faults : (at_ .lineFault).station.running = true ∧
    (at_ .lineFault).cp.slot = none ∧ 5 < (6 : Byte).toNat ∧ sendLengthOk [6, 2, 0x20] = true ∧ (5 : Byte).toNat ≤ 5 ∧
    6 < (7 : Byte).toNat ∧ 64 * ((0x20 : Byte).toNat % 16) + (0x03 : Byte).toNat / 4 = 0 ∧
    64 * ((0x28 : Byte).toNat % 16) + (0 : Byte).toNat / 4 = 512 ∧
    64 * ((0x20 : Byte).toNat % 16) + (0x05 : Byte).toNat / 4 = 1 ∧ (0x05 : Byte).toNat % 4 ≠ 0 ∧
    (0x20 : Byte).toNat % 64 ≠ 0 ∧ (0x21 : Byte).toNat % 16 ≠ 0 ∧ (0x02 : Byte).toNat % 4 ≠ 0 := by decide

theorem witness_QueryStationReportsTheStation : (early .loading .reading).station ≠ .reset ∧
    (early .loading .reading).cp.slot = none := by decide +kernel

theorem witness_QueriesReadTheTables : (at_ .lineFault).station.running = true ∧ (at_ .lineFault).cp.slot = none ∧
    (at_ .lineFault).conf.tracks 3 = false ∧ (at_ .lineFault).conf.tracks 7 = true ∧
    (at_ .lineFault).ze.zones[(7 : Fin 16)].hold = none ∧
    (zoned .active { fading 9 9 0 9 with hold := some ⟨61440, 1023, 15⟩ }).ze.zones[(2 : Fin 16)].hold =
      some ⟨61440, 1023, 15⟩ ∧ (31 : Fin 32).val = 16 * (1 : Fin 2).val + (15 : Fin 16).val ∧
    ((List.finRange 16).filter (at_ .lineFault).conf.tracks)[1]? = some 7 ∧ 15 < (16 : Byte).toNat ∧
    1 < (2 : Byte).toNat := by decide +kernel

theorem witness_SubscribeReplacesTheSet : (early .unconfigured .empty).station ≠ .reset ∧
    (early .unconfigured .empty).cp.slot = none ∧ (31 : Byte).toNat < 32 ∧ 32 ≤ (32 : Byte).toNat := by decide +kernel

theorem witness_RestartIsPendingUntilItsAcceptIsSent : (at_ .lineFault).station.running = true ∧
    (at_ .lineFault).cp.slot = none := by decide +kernel

/-- The sample station while it sends a frame. -/
def sendingFrame (isReply restart : Bool) (slot : Option Reply) (q : List Queued) : State :=
  (at_ .active).setCp { Cp.cold with sending := some ⟨isReply, []⟩, restart := restart, slot := slot, queue := q }

/-- Reports wanted and not, at an IDLE and a busy transmitter, at 15 and 16 reports; and a reply at each. -/
theorem witness_TransmitterChoosesAtTheEndOfAFrame_offers :
    subscribed Cp.cold (.line .driveFault 1) = false ∧ subscribed Cp.cold (.outcome 1 .sent) = true ∧
    subscribed { Cp.cold with subs := 16#5 } (.line .driveFault 1) = true ∧
    Cp.cold.sending = none ∧ Cp.cold.queue = [] ∧ Cp.cold.slot = none ∧
    (sendingFrame true false none (List.replicate 15 ⟨.line .driveFault 1, 0, 0⟩)).cp.sending ≠ none ∧
    (sendingFrame true false none (List.replicate 15 ⟨.line .driveFault 1, 0, 0⟩)).cp.queue.length < 16 ∧
    ¬(sendingFrame true false none (List.replicate 16 ⟨.line .driveFault 1, 0, 0⟩)).cp.queue.length < 16 := by decide +kernel

/-- R178: the start byte C5h on CTXD, least significant bit first, and CTXD without a frame under way. -/
theorem test_ctxd : ((at_ .active).setCp { Cp.cold with sending := some ⟨true, [0xC5]⟩ }).ctxd =
    some [false, true, false, true, false, false, false, true, true, true] ∧ (at_ .active).ctxd = none := by decide +kernel

theorem witness_TransmitterChoosesAtTheEndOfAFrame :
    ((sendingFrame false true (some ⟨0x81, 1, []⟩) []).cp.sending = some ⟨false, []⟩ ∧
      (sendingFrame false true (some ⟨0x81, 1, []⟩) []).cp.slot = some ⟨0x81, 1, []⟩) ∧
    ((sendingFrame true false none [⟨.line .driveFault 1, 0, 0⟩]).cp.restart = false ∧
      (sendingFrame true false none [⟨.line .driveFault 1, 0, 0⟩]).cp.queue = [⟨.line .driveFault 1, 0, 0⟩]) ∧
    (sendingFrame true false none []).cp.queue = [] := by decide +kernel

theorem witness_WarmRestartKeepsWhatTheStationHasLearned :
    (sendingFrame true true (some ⟨0x81, 1, []⟩) []).cp.sending = some ⟨true, []⟩ ∧
    (sendingFrame true true (some ⟨0x81, 1, []⟩) []).cp.restart = true := by decide +kernel

theorem witness_TickingCellPullsItsTick : (at_ .muted).station.ticking = true ∧ (at_ .muted).lc.framed = true ∧
    1 < (at_ .muted).lc.timer ∧ (at_ .muted).quietCell (at_ .muted).lc.timer = false ∧
    (expiring (at_ .active)).quietCell (expiring (at_ .active)).lc.timer = false ∧
    (expiring (at_ .active)).lc.timer = (expiring (at_ .active)).conf.frameLength ∧
    (expiring (at_ .active)).station.ticking = true ∧ ((at_ .active).setLc { (at_ .active).lc with timer := 1 }).lc.timer ≤ 1 ∧
    ((at_ .active).setLc { (at_ .active).lc with timer := 1 }).quietCell 1 = false := by decide +kernel

/-- The value windows that a framed ACTIVE station pulls and does not pull, at the ends of each field: count 42, the
claim of the head with priority 2 and number 5, the generator's at priority 6, a TOGGLE's stream, the veto. -/
theorem witness_TickingCellPullsItsTick_pulls :
    [3, 4, 5, 9, 10].map (at_ .active).pulls = [true, true, false, false, true] ∧
    [2, 11, 12, 19, 20, 88, 89, 90].all (fun k => !(at_ .active).pulls k) = true ∧
    ((at_ .active).setLc { (at_ .active).lc with countSending := false }).pulls 3 = false ∧
    ((at_ .active).setLc { (at_ .active).lc with countRead := true, count := 37 }).pulls 11 = true ∧
    [12, 13, 18, 19].map (queued .active [entry (.key 0) 2 (.toggle 1 0) 1]).pulls = [true, false, true, false] ∧
    [12, 13, 14, 19].map ((at_ .active).setLc
      { (at_ .active).lc with claimOpen := true, contest := some ⟨claimByte 6 5, .generator⟩ }).pulls =
        [false, false, true, false] ∧
    [20, 22, 24, 88, 89].map (originating .active 0 20 .queue (.toggle 1 0) 0).pulls = [true, false, true, false, false] ∧
    (receiving .active 0 89 [] true).pulls 89 = true ∧ (receiving .muted 0 89 [] true).pulls 89 = false := by
  decide +kernel

/-- A LISTENING station in cell 1 of a frame mark. -/
def listeningInMark : State := (at_ .listening).setLc { (at_ .listening).lc with timer := 1 }

theorem witness_ListeningCellFollowsTheLine : (at_ .listening).station = .listening ∧
    ¬(at_ .listening).lc.timer ≤ 1 ∧ listeningInMark.station = .listening ∧ listeningInMark.lc.framed = true ∧
    listeningInMark.lc.timer ≤ 1 ∧
    ((at_ .listening).conf.ownWidth : Int) ≤ (at_ .listening).lc.silencePart + (at_ .listening).conf.ownWidth ∧
    (let s := after .frameTransmitted (sendingFrame true true (some ⟨0x81, 1, []⟩) [])
     s.station = .listening ∧ s.lc.fresh = true ∧ s.lc.silencePart + (5 : Nat) < s.conf.ownWidth) := by
  decide +kernel

/-- The sample station in the quiet cell 2. -/
def quiet (seen : Bool) : State := (at_ .active).setLc { (at_ .active).lc with timer := 2, disturbance := seen }

theorem witness_DisturbanceIsOfferedOnceAFrame : (quiet false).station.reading = true ∧ (quiet false).lc.framed = true ∧
    1 < (quiet false).lc.timer ∧ (quiet false).lc.timer = 2 ∧
    (quiet false).lc.markable = false ∧ (quiet false).lc.disturbance = false ∧ (quiet true).lc.disturbance = true ∧
    (at_ .active).lc.timer = 50 ∧ (at_ .active).msu.frame.phase = .claim := by decide +kernel

/-- Each other quiet cell: a guard cell after an empty claim and after a message, and a receiver's first and last pad cells. -/
theorem witness_DisturbanceIsOfferedOnceAFrame_cells :
    (FrameRecord.cleared .noMessage).phase = .noMessage ∧ (FrameRecord.cleared .result).phase = .result ∧
    (FrameRecord.cleared .result).role = .receiver ∧
    4 ≤ ({ FrameRecord.cleared .result with cells := List.replicate 69 false } : FrameRecord).cells.length ∧
    32 + 8 * dataLength ({ FrameRecord.cleared .result with cells := List.replicate 69 false } : FrameRecord).kind = 56 ∧
    56 ≤ 88 := by decide +kernel

theorem witness_LineFaultGridRunsFree : (at_ .lineFault).station = .lineFault := rfl

theorem witness_StuckPullEntersLineFault :
    3 * (at_ .active).conf.ownWidth < min 300001 ((at_ .active).lc.measured + 5) ∧
    min 900000 (200000 + 100000) ≤ 3 * (at_ .active).conf.ownWidth ∧
    (at_ .active).lc.pullHanded = false ∧ (at_ .active).station.reading = true ∧ (at_ .active).originating = false ∧
    (at_ .active).lc.contest = none ∧ (at_ .lineFault).station = .lineFault ∧ (at_ .lineFault).lc.pullHanded = false := by
  decide +kernel

/-- The sample station whose queue's head contends. -/
def contending : State := (queued .active [{ entry (.key 0) 2 (.toggle 1 0) 1 with inFlight := true }]).setLc
  { (at_ .active).lc with claimOpen := true, contest := some ⟨claimByte 2 5, .queue⟩, nextCell := 14 }

theorem witness_StuckPullEntersLineFault_contending : contending.queueContends ∧ contending.station.reading = true ∧
    contending.originating = false ∧ contending.lc.pullHanded = false :=
  ⟨⟨_, rfl, rfl⟩, by decide +kernel, by decide +kernel, by decide +kernel⟩

/-- The sample station in cell 40 of its own message, of the queue's or the generator's. -/
theorem witness_StuckPullEntersLineFault_abandoned :
    let s := fun (attempts : Nat) (src : Source) => (originating .active 0 40 .queue (.toggle 1 0) 20).setCq { (at_ .active).cq with
      entries := [{ entry src 2 (.toggle 1 0) 1 with inFlight := true, attempts := attempts }], nextOrder := 2 }
    (s 3 (.companion 9)).originating = true ∧ (s 3 (.companion 9)).lc.contest = none ∧
    (s 3 (.companion 9)).msu.frame.presenter = some .queue ∧
    (s 2 (.key 1)).cq.entries.find? Entry.inFlight =
      some { entry (.key 1) 2 (.toggle 1 0) 1 with inFlight := true, attempts := 2 } ∧
    (s 3 (.companion 9)).lc.pullHanded = false ∧ (s 3 (.companion 9)).station.reading = true ∧
    (originating .active 0 40 .generator (.zoneStatement 2 9 9 0 9) 20).msu.frame.presenter = some .generator := by
  decide +kernel

theorem witness_LineClearReturnsToListening :
    ((at_ .lineFault).setLc { (at_ .lineFault).lc with clear := 32 }).station = .lineFault ∧
    ((at_ .lineFault).setLc { (at_ .lineFault).lc with clear := 32 }).lc.clear = 32 := ⟨rfl, rfl⟩

/-- The sample station in a cell that began with a transition. -/
def markableAt (st : StationState) (timer cells : Nat) : State :=
  ((at_ st).setLc { (at_ st).lc with timer := timer, markable := true }).setOu { (at_ st).ou with cells := cells }

theorem witness_LineMarksStartFrames : (expiring (at_ .muted)).station.ticking = true ∧
    (expiring (at_ .muted)).lc.framed = true ∧ (expiring (at_ .muted)).lc.timer = (expiring (at_ .muted)).conf.frameLength ∧
    (markableAt .listening 92 92).station.reading = true ∧ (markableAt .listening 92 92).lc.markable = true ∧
    (markableAt .listening 92 92).lc.framed = true ∧ (markableAt .listening 92 92).msu.frame.phase ≠ .noMessage ∧
    92 ≤ (markableAt .listening 92 92).lc.timer ∧ (markableAt .listening 91 91).lc.timer < 92 ∧
    (markableAt .listening 91 91).lc.timer ≠ (markableAt .listening 91 91).conf.frameLength ∧
    ((at_ .active).setMsu { Msu.cold with frame := .cleared .noMessage }).msu.frame.phase = .noMessage ∧
    22 ≤ (markableAt .listening 22 22).lc.timer ∧
    (let s := (at_ .listening).setLc { (at_ .listening).lc with framed := false, markable := true }
     s.station.reading = true ∧ s.lc.markable = true ∧ ¬founding s ∧ s.lc.framed = false) := by decide +kernel

/-- Marks that cut the generator's contest and its message, and one that cuts neither. -/
theorem witness_MarkHandsOverTheSettledMessage_generator :
    (let s := (markableAt .active 15 15).setLc
      { (markableAt .active 15 15).lc with contest := some ⟨claimByte 6 5, .generator⟩ }
     takesLineMark (.frameMark mark) mark s ∧ generatorSends s) ∧
    (let s := (originating .active 0 40 .generator (.zoneStatement 2 9 9 0 9) 20).setLc (markableAt .active 40 40).lc
     takesLineMark (.frameMark mark) mark s ∧ generatorSends s) ∧
    takesLineMark (.frameMark mark) mark (markableAt .active 150 150) ∧
    (markableAt .active 150 150).lc.contest = none ∧ (markableAt .active 150 150).msu.frame.phase = .claim ∧
    (after (.frameMark mark) (markableAt .active 150 150)).station = .active :=
  ⟨⟨.inr ⟨rfl, rfl, rfl, by decide +kernel⟩, .inl ⟨_, rfl, rfl⟩⟩,
    ⟨.inr ⟨rfl, rfl, rfl, by decide +kernel⟩, .inr ⟨rfl, rfl⟩⟩, .inr ⟨rfl, rfl, rfl, by decide +kernel⟩, rfl, rfl,
    by decide +kernel⟩

theorem witness_LocalMarkRunsTheStationAlone : (expiring (at_ .lineFault)).station = .lineFault ∧
    (expiring (at_ .lineFault)).lc.timer = (expiring (at_ .lineFault)).conf.frameLength ∧
    (expiring (at_ .lineFault)).msu.slot = none ∧ (expiring (at_ .lineFault)).ze.failsafe < 8 * conf.failDelay ∧
    8 * conf.failDelay ≤ ((at_ .lineFault).setZe { (at_ .lineFault).ze with failsafe := 8 }).ze.failsafe := by decide +kernel

/-- A station in LINE FAULT whose next local mark takes the failsafe, and one with a hold on its last count in zone 2. -/
theorem witness_LocalMarkRunsTheStationAlone_zones :
    (let s := (expiring (at_ .lineFault)).setZe { (at_ .lineFault).ze with failsafe := 7 }
     s.station = .lineFault ∧ s.lc.timer = s.conf.frameLength ∧ s.msu.slot = none ∧
      s.ze.failsafe + 1 = 8 * s.conf.failDelay) ∧
    (let s := expiring (zoned .lineFault { fading 9 9 0 9 with hold := some ⟨1, 0, 0⟩ })
     s.station = .lineFault ∧ s.lc.timer = s.conf.frameLength ∧ s.msu.slot = none ∧
      s.ze.zones[(2 : Fin 16)].hold = some ⟨1, 0, 0⟩) ∧
    (let s := expiring (zoned .lineFault { fading 9 4 1 9 with hold := some ⟨2, 0, 0⟩ })
     s.station = .lineFault ∧ s.ze.zones[(2 : Fin 16)].hold = some ⟨2, 0, 0⟩ ∧ s.ze.zones[(2 : Fin 16)].fade = 1) := by
  decide +kernel

theorem witness_FoundingMakesAMember :
    ((at_ .listening).setLc { (at_ .listening).lc with silence := 600 }).station = .listening ∧
    3 * conf.frameLength ≤ ((at_ .listening).setLc { (at_ .listening).lc with silence := 600 }).lc.silence ∧
    (at_ .listening).conf.tracks 2 = true := by decide +kernel

/-- The sample station with a settled message of station 3 in its slot. -/
def holding : State := (markableAt .active 150 150).setMsu
  { Msu.cold with frame := { FrameRecord.cleared .result with result := some .settled }, slot := some ⟨0x23, 2, (Msg.toggle 2 0).bits, 42, false⟩ }

theorem witness_MarkHandsOverTheSettledMessage : takesLineMark (.frameMark mark) mark holding ∧
    takesLineMark (.frameTimerExpiry mark) mark (expiring (at_ .active)) ∧
    takesLineMark (.frameMark mark) mark (markableAt .listening 91 91) ∧
    holding.msu.slot = some ⟨0x23, 2, (Msg.toggle 2 0).bits, 42, false⟩ ∧ claimOrigin 0x23 ≠ holding.number ∧
    holding.conf.tracks 2 = true ∧ holding.conf.tracks 3 = false :=
  ⟨.inr ⟨rfl, by decide +kernel, by decide +kernel⟩,
    .inl ⟨rfl, by decide +kernel, by decide +kernel, by decide +kernel⟩,
    .inr ⟨rfl, by decide +kernel, by decide +kernel⟩, by decide +kernel, by decide +kernel, by decide +kernel,
    by decide +kernel⟩

/-- A station that founds with a settled message in its slot. -/
theorem witness_FoundingMakesAMember_slot :
    let s := ((at_ .listening).setLc { (at_ .listening).lc with silence := 765 }).setMsu holding.msu
    s.station = .listening ∧ 3 * s.conf.frameLength ≤ s.lc.silence ∧ s.msu.slot ≠ none ∧
      (7 : Fin 32) ≠ s.number ∧ s.conf.tracks 7 = true := by decide +kernel

/-- A LISTENING station at a mark with the given bookkeeping. -/
def joining (read pair own : Bool) : State := ((markableAt .listening 150 150).setLc
  { (markableAt .listening 150 150).lc with countRead := read }).setMu
  { (at_ .listening).mu with pairHeld := pair, ownFree := own }

/-- Stage (a) at an ACTIVE station: a zone in its 64th frame, one in an earlier frame, and one that its statement verifies. -/
theorem witness_MarkHandsOverTheSettledMessage_ages :
    let s := fun (age : Nat) => (((zoned .active { fading 9 9 0 9 with age := age }).setLc (markableAt .active 150 150).lc).setMu
      { (at_ .active).mu with activeFrame := true })
    (∀ age ∈ [62, 63], takesLineMark (.frameMark mark) mark (s age) ∧ (s age).station = .active ∧
      (s age).mu.activeFrame = true ∧ (s age).conf.tracks 2 = true ∧ (s age).ze.zones[(2 : Fin 16)].unverified = true ∧
      (s age).ze.zones[(2 : Fin 16)].age = age) ∧
    ((s 63).ze.zones[(2 : Fin 16)].apply (s 63).ss.stored (.zoneStatement 2 5 5 0 5) 2).unverified = false :=
  ⟨fun age h => by
      refine ⟨.inr ⟨rfl, ?_⟩, ?_⟩ <;> revert age <;> decide +kernel,
    by decide +kernel⟩

/-- A LISTENING station that founds in a cell a transition began recognises no mark. -/
theorem witness_LineMarksStartFrames_founding :
    founding ((markableAt .listening 150 150).setLc { (markableAt .listening 150 150).lc with silence := 600 }) ∧
    ¬founding (markableAt .listening 92 92) := by decide +kernel

theorem witness_JoinNeedsPairAndFreeOwnCell : (joining true true true).station = .listening ∧
    (joining true true true).lc.markable = true ∧ (joining true true true).lc.countRead = true ∧
    (joining true true true).mu.pairHeld = true ∧ (joining true true true).mu.ownFree = true ∧
    (joining true true false).mu.ownFree = false ∧ (joining false true true).lc.countRead = false := by decide +kernel

/-- The sample station in membership meets the membership invariant. -/
theorem at_membersOk : MembersOk (expiring (at_ .muted)) where
  score := by show 0 ≤ 255; omega
  active := fun _ => by show 0 < 64; omega
  own := by decide +kernel
  others := by decide +kernel
  unready := fun h => absurd h (by decide +kernel)

theorem witness_CleanFramesLowerTheScore :
    takesLineMark (.frameTimerExpiry mark) mark (expiring (at_ .muted)) ∧ (expiring (at_ .muted)).station.ticking = true ∧
    takesLineMark (.frameMark mark) mark (markableAt .muted 150 150) ∧ MembersOk (expiring (at_ .muted)) ∧
    conf.tracks 2 = true ∧ (expiring (at_ .muted)).msu.slot = none :=
  ⟨.inl ⟨rfl, rfl, rfl, rfl⟩, rfl, .inr ⟨rfl, rfl, by decide +kernel⟩, at_membersOk, by decide +kernel, rfl⟩

/-- A record on at level 9 with a hold. -/
def held : ZoneRecord := { fading 9 9 0 9 with hold := some ⟨1, 0, 0⟩ }

/-- That record is sound. -/
theorem held_ok : held.Ok where
  target := by decide
  current := by decide
  lastOn := by decide
  fade := by decide
  done := by decide
  hold := fun h e => by
    obtain rfl : (⟨1, 0, 0⟩ : Hold) = h := Option.some.inj e
    exact ⟨⟨by decide, by decide, by decide⟩, by decide⟩
  age := by decide

theorem witness_RequestsChangeAZoneAsTheirRulesSay : held.Ok ∧ (1023 : Nat) ≤ 1023 ∧ (-511 : Int) ≤ -511 ∧
    (-511 : Int) ≠ 0 ∧ (∀ sc c, Msg.capture 3 0 ≠ .recall sc c) ∧
    (∀ y p f v c, Msg.holdStatement 3 true 1 0 0 = .holdStatement y p f v c → y ≠ 2) :=
  ⟨held_ok, by decide, by decide, by decide, by simp, by rintro _ _ _ _ _ ⟨⟩; decide⟩

theorem witness_FadeReachesItsTarget : (fading 0 10 4 10).fade = 0 → (fading 0 10 4 10).current = (fading 0 10 4 10).target := by
  decide

/-- Records at each remainder of a fade, below and above their targets. -/
theorem witness_FadeReachesItsTarget_steps : (fading 9 9 0 9).fade = 0 ∧ (fading 9 4 1 9).fade = 1 ∧
    1 < (fading 9 4 2 9).fade ∧ (fading 9 4 2 9).current ≤ (fading 9 4 2 9).target ∧
    1 < (fading 0 10 4 10).fade ∧ (fading 0 10 4 10).target ≤ (fading 0 10 4 10).current := by decide

theorem witness_SceneStatementsAreComparedSerially : conf.tracks 2 = true ∧ conf.tracks 3 = false ∧
    (128 + 256 - (Ss.cold.entry 0 2).gen.toNat) % 256 ≤ 128 ∧ 128 < (129 + 256 - (Ss.cold.entry 0 2).gen.toNat) % 256 ∧
    ((1 : Fin 16), (2 : Fin 16)) ≠ (0, 2) ∧ (1 : Fin 16) ≠ 0 ∧ (∀ sc g, Msg.halt 2 ≠ .capture sc g) ∧
    (∀ sc z g p l, Msg.halt 2 ≠ .sceneStatement sc z g p l) :=
  ⟨by decide +kernel, by decide +kernel, by decide +kernel, by decide +kernel, by decide, by decide, by simp, by simp⟩

/-- The sample station in its 64th unverified frame. -/
def aging : State := (zoned .active { fading 9 9 0 9 with age := 63 }).setMu { (at_ .active).mu with activeFrame := true }

theorem witness_ZoneTimersEndWithTheirEvents : (zoned .lineFault (fading 9 4 1 9)).station.running = true ∧
    (zoned .lineFault (fading 9 4 1 9)).conf.tracks 2 = true ∧ (zoned .lineFault (fading 9 4 1 9)).ze.zones[(2 : Fin 16)].fade = 1 ∧
    (zoned .active held).ze.zones[(2 : Fin 16)].hold = some ⟨1, 0, 0⟩ ∧ aging.ze.zones[(2 : Fin 16)].unverified = true ∧
    aging.ze.zones[(2 : Fin 16)].age = 63 ∧ aging.station = .active ∧ aging.mu.activeFrame = true := by decide +kernel

theorem witness_FailsafeSetsEveryLiveZone :
    ((at_ .lineFault).setZe { (at_ .lineFault).ze with failsafe := 7 }).station = .lineFault ∧
    ((at_ .lineFault).setZe { (at_ .lineFault).ze with failsafe := 7 }).ze.failsafe + 1 = 8 * conf.failDelay := ⟨rfl, rfl⟩

/-- The sample station with one entry of the given age. -/
def ageing (src : Source) (age : Nat) (flying : Bool) : State :=
  queued .active [{ entry src 2 (.recall 3 0) 1 with age := age, inFlight := flying }]

/-- Nothing in a full queue matches a request on zone 2; zone 3's CAPTUREs are never replaced. -/
theorem witness_RequestsCoalesceWithQueuedOnes_full : full.Pairwise (fun a b => a.order ≠ b.order) ∧ full.length = 8 ∧
    (∀ e ∈ full, (!e.inFlight && e.req == .halt 2) = false) ∧
    (∀ e ∈ full, e.inFlight = false → ∀ x, e.req ≠ .step 2 x) ∧
    (∀ e ∈ full, e.inFlight = false → ∀ x, e.req ≠ .toggle 2 x) := by
  refine ⟨by decide, by decide, by decide, ?_, ?_⟩ <;> simp [full, entry]

theorem witness_StaleEntriesAreRemoved : (ageing (.key 1) 15 false).station.running = true ∧
    (ageing (.key 1) 15 false).cq.entries[0]? = some { entry (.key 1) 2 (.recall 3 0) 1 with age := 15 } ∧
    conf.staleness ≤ min 255 (15 + 1) ∧ min 255 (14 + 1) < conf.staleness ∧
    (ageing (.companion 7) 255 true).cq.entries[0]? =
      some { entry (.companion 7) 2 (.recall 3 0) 1 with age := 255, inFlight := true } := by decide +kernel

/-- The sample station meets the invariant of its counts. -/
theorem at_countsOk (st : StationState) : CountsOk (at_ st) where
  slips := by show 0 ≤ 255; omega
  silence := by show 0 ≤ 765; omega
  clear := by show 0 ≤ 32; omega
  settled := by show 0 ≤ 65535; omega
  void := by show 0 ≤ 65535; omega
  discard := by show 0 ≤ 65535; omega
  gap := by show 64 ≤ 64; omega
  keys := fun k => by revert k; show ∀ k : Fin 4, Cq.cold.counts[k].sent ≤ 255 ∧ Cq.cold.counts[k].failed ≤ 255 ∧
    Cq.cold.counts[k].stale ≤ 255 ∧ Cq.cold.counts[k].dropped ≤ 255; decide
  ages := fun e h => absurd h (by show ¬e ∈ []; simp)
  failsafe := by show 0 ≤ 2040 ∧ 1 ≤ 255; omega
  presses := fun k => by revert k; show ∀ k : Fin 4, Ku.cold.channels[k].age ≤ 255 ∧ Ku.cold.channels[k].repeats ≤ 255 ∧
    conf.keys[k].interval ≤ 255; decide

/-- A mark that no key offers anything at, one at which KEY3 alone offers, and the orders of its task. -/
theorem witness_StaleEntriesAreRemoved_marks : takesMark (.frameTimerExpiry mark) mark (expiring (at_ .active)) ∧
    takesMark (.localFrameMark mark) mark (expiring (at_ .lineFault)) ∧ mark.wellFormed = true ∧ CountsOk (at_ .active) ∧
    (∀ k : Fin 4, offerAtMark mark (at_ .active) k = none) ∧
    (let s := pressed .active 3 ⟨some true, false, 0, false, 0, false⟩
     let m := { mark with keys := 0#4, queueOrder := [.frameEnd, .sweep, .key 3, .key 0, .key 1, .key 2] }
     offerAtMark m s 3 = some (.level 2 3 400) ∧ (∀ j : Fin 4, j ≠ 3 → offerAtMark m s j = none) ∧ m.wellFormed = true ∧
      m.queueOrder = .frameEnd :: .sweep :: .key 3 :: [.key 0, .key 1, .key 2]) :=
  ⟨.inl (.inl ⟨rfl, rfl, rfl, rfl⟩), .inr (.inl ⟨rfl, rfl, rfl⟩), by decide, at_countsOk _, by decide +kernel, by decide +kernel⟩

/-- A press, a release, a first sample and a held key at a mark. -/
theorem witness_HeldKeysGiveTheirRequests_marks :
    takesMark (.founding mark) mark ((at_ .listening).setLc { (at_ .listening).lc with silence := 600 }) ∧
    takesMark (.frameMark mark) mark (markableAt .listening 150 150) ∧
    (let s := pressed .active 0 ⟨some true, false, 0, false, 0, false⟩
     s.ku.channels[(0 : Fin 4)].pressed = false ∧ (mark.keys.getLsbD 0 != s.conf.keys[(0 : Fin 4)].activeLow) = true ∧
      s.ku.channels[(0 : Fin 4)].previous = some true ∧ s.conf.keys[(0 : Fin 4)].func ≠ .off) ∧
    (let s := pressed .active 1 ⟨some false, true, 0, false, 0, false⟩
     s.ku.channels[(1 : Fin 4)].pressed = true ∧ (mark.keys.getLsbD 1 != s.conf.keys[(1 : Fin 4)].activeLow) = false ∧
      s.ku.channels[(1 : Fin 4)].previous = some false) ∧
    Configuration.blank.keys[(0 : Fin 4)].func = .off :=
  ⟨.inr (.inr ⟨rfl, rfl, by decide +kernel⟩), .inl (.inr ⟨rfl, by decide +kernel, by decide +kernel⟩), by decide +kernel,
    by decide +kernel, by decide⟩

theorem witness_HeldKeysGiveTheirRequests :
    (pressed .active 0 ⟨some true, true, 7, false, 0, false⟩).station.running = true ∧
    (pressed .active 0 ⟨some true, true, 7, false, 0, false⟩).ku.channels[(0 : Fin 4)].pressed = true ∧
    conf.keys[(0 : Fin 4)].func = .toggleDim ∧ min 255 (7 + 1) = conf.longPress ∧
    conf.keys[(1 : Fin 4)].func = .scene ∧ conf.keys[(0 : Fin 4)].interval ≤ 3 + 1 ∧
    conf.keys[(2 : Fin 4)].func = .occupy ∧ conf.keys[(2 : Fin 4)].interval ≤ 2 + 1 := by decide +kernel

/-- Eight waiting entries make a sound queue. -/
theorem full_ok : QueueOk (queued .active full).cq where
  size := by decide +kernel
  flight := by decide +kernel
  attempts := by decide +kernel
  order := by decide +kernel
  distinct := by decide +kernel
  fresh := by decide +kernel

/-- The empty queue is sound. -/
theorem empty_ok : QueueOk (queued .active []).cq where
  size := by decide +kernel
  flight := by decide +kernel
  attempts := by decide +kernel
  order := by decide +kernel
  distinct := by decide +kernel
  fresh := by decide +kernel

theorem witness_OffersKeepTheQueueSound : QueueOk (queued .active full).cq ∧ (queued .active full).cq.entries.length = 8 ∧
    QueueOk (queued .active []).cq ∧ (queued .active []).cq.entries.length < 8 :=
  ⟨full_ok, by decide +kernel, empty_ok, by decide +kernel⟩

/-- A STEP and a TOGGLE on zone 2 that wait. -/
def folding : List Entry := [entry (.companion 1) 2 (.step 2 40) 3, entry (.key 0) 3 (.toggle 2 0) 4]

theorem witness_RequestsCoalesceWithQueuedOnes : folding.Pairwise (fun a b => a.order ≠ b.order) ∧
    entry (.companion 1) 2 (.step 2 40) 3 ∈ folding ∧
    (∀ e ∈ folding, e.inFlight = false → (∃ x, e.req = .step 2 x) → e.order ≤ 3) ∧
    entry (.key 0) 3 (.toggle 2 0) 4 ∈ folding ∧
    (∀ e ∈ folding, e.inFlight = false → (∃ x, e.req = .toggle 2 x) → e.order ≤ 4) ∧
    (folding.filter fun e => !(!e.inFlight && e.req == .toggle 2 0)).length < 8 := by
  refine ⟨by decide, by decide, ?_, by decide, ?_, by decide⟩ <;> simp [folding, entry]

/-- Two STEPs and two TOGGLEs on zone 2, of which the later-admitted stand first, and requests that a RECALL, an OCCUPY and a
HALT replace; nothing waits on zone 3. -/
def crowded : List Entry := [entry (.companion 1) 1 (.step 2 40) 8, entry (.key 0) 1 (.toggle 2 0) 9,
  entry (.companion 2) 2 (.step 2 (-40)) 3, entry (.key 1) 3 (.toggle 2 3) 4, entry (.companion 3) 3 (.recall 1 0) 5,
  entry (.companion 4) 3 (.occupy 2 1 0 0) 6, entry (.companion 5) 4 (.halt 2) 7]

theorem witness_RequestsCoalesceWithQueuedOnes_latest : crowded.Pairwise (fun a b => a.order ≠ b.order) ∧
    entry (.companion 1) 1 (.step 2 40) 8 ∈ crowded ∧
    (∀ e ∈ crowded, e.inFlight = false → (∃ x, e.req = .step 2 x) → e.order ≤ 8) ∧
    entry (.key 0) 1 (.toggle 2 0) 9 ∈ crowded ∧
    (∀ e ∈ crowded, e.inFlight = false → (∃ x, e.req = .toggle 2 x) → e.order ≤ 9) ∧
    (∀ e ∈ crowded, e.inFlight = false → ∀ x, e.req ≠ .step 3 x) ∧
    (∀ e ∈ crowded, e.inFlight = false → ∀ x, e.req ≠ .toggle 3 x) ∧ crowded.length < 8 := by
  refine ⟨by decide, by decide, ?_, by decide, ?_, ?_, ?_, by decide⟩ <;> simp [crowded, entry]

theorem witness_ListenersAdoptTheCount : (beforeCell .muted 3).lc.framed = true ∧ (beforeCell .muted 3).station = .muted ∧
    (beforeCell .listening 3).lc.framed = true ∧ (beforeCell .listening 3).station = .listening ∧
    (beforeCell .listening 3).lc.nextCell = 3 ∧ (beforeCell .listening 3).lc.countBits = [] := by decide +kernel

theorem witness_ActiveSendersAdoptALowerCount : (beforeCell .active 3).lc.framed = true ∧
    (beforeCell .active 3).station = .active ∧ (beforeCell .active 3).lc.nextCell = 3 ∧
    (beforeCell .active 3).lc.countBits = [] ∧ (beforeCell .active 3).lc.countSending = true ∧
    (40 : Byte).toNat ≤ (beforeCell .active 3).lc.count.toNat ∧ (42 : Byte) = (beforeCell .active 3).lc.count := by
  decide +kernel

/-- A state as a frame whose drive faults the one before and this one hold as given. -/
def faulty (before seen : Bool) (s : State) : State :=
  (s.setMu { s.mu with faultBefore := before }).setLc { s.lc with driveFault := seen }

/-- The sample station at count cell `k` of a count of 0, in which it pulls. -/
def pulling (score k : Nat) : State :=
  ((beforeCell .active k).setLc { (beforeCell .active k).lc with count := 0 }).setMu { (at_ .active).mu with score := score }

/-- The sample station at its own presence cell. -/
def present : State := (beforeCell .active 11).setLc { (beforeCell .active 11).lc with countRead := true, count := 37 }

/-- A running station with a score below 64 meets the membership invariant when its member table does. -/
theorem membersOk_of (s : State) (h : s.mu.score < 64 ∧ s.station.unready = false ∧
    s.mu.members[s.number] = ownRecord s.conf s.station ∧
    ∀ i : Fin 32, i ≠ s.number → s.mu.members[i].present = false → s.mu.members[i] = .absent) : MembersOk s where
  score := by omega
  active := fun _ => h.1
  own := h.2.2.1
  others := h.2.2.2
  unready := fun hu => absurd hu (by simp [h.2.1])

theorem witness_DriveFaultsScoreAndDisconnect :
    (∀ k ∈ [3, 9, 10], MembersOk (pulling 56 k) ∧ (pulling 56 k).lc.framed = true ∧ (pulling 56 k).station = .active ∧
      (pulling 56 k).pulls (pulling 56 k).lc.nextCell = true ∧ (pulling 56 k).lc.nextCell = k ∧
      (pulling 56 k).lc.contest = none ∧ (pulling 56 k).originating = false) ∧
    (MembersOk present ∧ present.lc.framed = true ∧ present.pulls present.lc.nextCell = true ∧ present.lc.nextCell = 11 ∧
      present.lc.contest = none ∧ present.originating = false) ∧
    (MembersOk (faulty true false present) ∧ (faulty true false present).lc.driveFault = false ∧
      (faulty true false present).mu.faultBefore = true) ∧
    MembersOk (faulty true true present) ∧ (faulty true true present).lc.driveFault = true :=
  ⟨fun k hk => by
      have h : ∀ k ∈ [3, 9, 10], (pulling 56 k).lc.framed = true ∧ (pulling 56 k).station = .active ∧
          (pulling 56 k).pulls (pulling 56 k).lc.nextCell = true ∧ (pulling 56 k).lc.nextCell = k ∧
          (pulling 56 k).lc.contest = none ∧ (pulling 56 k).originating = false := by decide +kernel
      have ok : MembersOk (pulling 56 3) := membersOk_of _ (by decide +kernel)
      exact ⟨⟨ok.score, ok.active, ok.own, ok.others, ok.unready⟩, h k hk⟩,
    ⟨membersOk_of _ (by decide +kernel), by decide +kernel⟩, ⟨membersOk_of _ (by decide +kernel), by decide +kernel⟩,
    membersOk_of _ (by decide +kernel), by decide +kernel⟩

/-- In the claim field: the queue's head in a contest at cell 14, the generator's item, with a claim that ends in 0, at cell 19,
and the queue's head at cell 12, where it first contends. -/
theorem witness_DriveFaultsScoreAndDisconnect_claim :
    let generator := (contending.setLc { contending.lc with
      contest := some ⟨claimByte 6 4, .generator⟩, nextCell := 19, claimBits := (bitsOfByte (claimByte 6 4)).take 7 }).setCq (at_ .active).cq
    (MembersOk contending ∧ contending.lc.framed = true ∧ contending.station = .active ∧
      contending.pulls contending.lc.nextCell = true ∧ contending.lc.claimOpen = true ∧ contending.msu.frame.phase = .claim ∧
      contending.lc.contest = some ⟨claimByte 2 5, .queue⟩) ∧
    (MembersOk generator ∧ generator.lc.framed = true ∧ generator.pulls 19 = true ∧ generator.lc.claimOpen = true ∧
      generator.msu.frame.phase = .claim) ∧
    (let s := queued .active [entry (.key 0) 2 (.toggle 1 0) 1]
     let first := s.setLc { s.lc with nextCell := 12 }
     MembersOk first ∧ first.lc.framed = true ∧ first.pulls 12 = true ∧ first.lc.claimOpen = false ∧
      first.presents.map Prod.fst = some ⟨claimByte 2 5, .queue⟩ ∧ first.msu.frame.phase = .claim) :=
  ⟨⟨membersOk_of _ (by decide +kernel), by decide +kernel⟩, ⟨membersOk_of _ (by decide +kernel), by decide +kernel⟩,
    membersOk_of _ (by decide +kernel), by decide +kernel⟩

/-- In the message and the veto cell: an originator at cells 20 and 88, a receiver with a fault found, and an originator with a
mismatch, of the queue's message and of the generator's. -/
theorem witness_DriveFaultsScoreAndDisconnect_message :
    let o := originating .active 60 20 .queue (.toggle 1 0) 0
    let r := receiving .active 63 89 (List.replicate 69 true) true
    let v := originating .active 0 89 .generator (.zoneStatement 2 9 9 0 9) 69
    let d := v.setMsu { v.msu with frame := { v.msu.frame with mismatch := true, veto := true } }
    (MembersOk o ∧ o.lc.framed = true ∧ o.station = .active ∧ o.pulls o.lc.nextCell = true ∧ o.lc.contest = none ∧
      o.msu.frame.phase = .message ∧ o.msu.frame.role = .originator ∧ o.lc.nextCell = 20 + o.msu.frame.cells.length) ∧
    (MembersOk r ∧ r.lc.framed = true ∧ r.pulls r.lc.nextCell = true ∧ r.lc.nextCell = 89 ∧ r.lc.contest = none ∧
      r.msu.frame.phase = .message ∧ r.msu.frame.role = .receiver ∧ r.msu.frame.faultFound = true) ∧
    (MembersOk d ∧ d.lc.framed = true ∧ d.pulls d.lc.nextCell = true ∧ d.lc.nextCell = 89 ∧ d.lc.contest = none ∧
      d.msu.frame.phase = .message ∧ d.msu.frame.role = .originator ∧ d.msu.frame.faultFound = false ∧
      d.msu.frame.mismatch = true ∧ d.msu.frame.presenter = some .generator) :=
  ⟨⟨membersOk_of _ (by decide +kernel), by decide +kernel⟩, ⟨membersOk_of _ (by decide +kernel), by decide +kernel⟩,
    membersOk_of _ (by decide +kernel), by decide +kernel⟩

/-- The sample station at the presence cell of a frame with count `n`. -/
def presenceOf (st : StationState) (n : Byte) (m : Member) : State :=
  ((beforeCell st 11).setLc { (beforeCell st 11).lc with countRead := true, count := n }).setMu
    { (at_ st).mu with members := (at_ st).mu.members.set 19 m }

theorem witness_PresenceReadingsKeepTheMemberTable : (presenceOf .listening 19 .absent).readsFields = true ∧
    (presenceOf .listening 19 .absent).lc.nextCell = 11 ∧ (presenceOf .listening 19 .absent).lc.countRead = true ∧
    (19 : Fin 32).val = (presenceOf .listening 19 .absent).lc.count.toNat % 32 ∧ 19 ≠ (presenceOf .listening 19 .absent).number ∧
    (presenceOf .listening 19 .absent).mu.members[(19 : Fin 32)].present = false ∧
    (presenceOf .active 51 ⟨true, 0, 0⟩).mu.members[(19 : Fin 32)].misses = 0 ∧
    (presenceOf .active 51 ⟨true, 1, 0⟩).mu.members[(19 : Fin 32)].misses = 1 ∧
    (19 : Fin 32).val = (presenceOf .active 51 ⟨true, 1, 0⟩).lc.count.toNat % 32 ∧
    (5 : Fin 32).val = (presenceOf .muted 37 .absent).lc.count.toNat % 32 ∧ 5 = (presenceOf .muted 37 .absent).number := by
  decide +kernel

theorem witness_UncontendedClaimIsReceived : (beforeCell .active 12).readsFields = true ∧
    (beforeCell .active 12).lc.nextCell = 12 ∧ (beforeCell .active 12).lc.claimOpen = false ∧
    (beforeCell .active 12).lc.contest = none ∧ (beforeCell .active 12).lc.claimBits = [] ∧
    (beforeCell .active 12).msu.frame = .cleared .claim ∧ (beforeCell .muted 12).presents = none := by decide +kernel

/-- The sample station before a claim field with one entry waiting. -/
def claiming (l : List Entry) : State := (queued .active l).setLc (beforeCell .active 12).lc

/-- The sample station before a claim field as the verified reporter of zone 2 with an empty queue. -/
def stating : State := ((claiming []).setZe { (at_ .active).ze with zones := (at_ .active).ze.zones.set 2 { held with unverified := false } }).setRg
  { Rg.cold with gap := 4 }

theorem witness_WonClaimOriginatesTheMessage : (claiming folding).readsFields = true ∧ (claiming folding).station = .active ∧
    (claiming folding).lc.nextCell = 12 ∧ (claiming folding).lc.claimOpen = false ∧ (claiming folding).lc.contest = none ∧
    (claiming folding).lc.claimBits = [] ∧ (claiming folding).msu.frame = .cleared .claim ∧
    (claiming folding).cq.entries = entry (.companion 1) 2 (.step 2 40) 3 :: [entry (.key 0) 3 (.toggle 2 0) 4] ∧
    (∀ x ∈ (claiming folding).cq.entries, x.inFlight = false) ∧ stating.cq.entries = [] ∧
    stating.conf.restatement ≤ stating.rg.gap ∧ stating.chosenItem = some (.rotation 36) ∧
    stating.msu.frame = .cleared .claim := by decide +kernel

/-- A station with a marked pair, and stations whose rotation has an item at the cursor and none. -/
theorem witness_WonClaimOriginatesTheMessage_items :
    (let s := stating.setSs (stating.ss.setEntry 4 7 ⟨none, 0, true⟩)
     s.conf.tracks 7 = true ∧ (s.ss.entry 4 7).correction = true ∧ s.chosenItem = some (.correction 4 7)) ∧
    (∀ z : Fin 16, stating.reporter z = decide (z = 2)) ∧
    (∀ k < 36, stating.reporter (Fin.ofNat 16 ((stating.rg.cursor.val + k) % 288 / 18)) = false) ∧
    (claiming []).chosenItem = none ∧ (36 : Fin 288).val = 18 * (2 : Fin 16).val ∧
    (37 : Fin 288).val = 18 * (2 : Fin 16).val + 1 ∧ (287 : Fin 288).val = 18 * (15 : Fin 16).val + 2 + (15 : Fin 16).val := by
  decide +kernel

theorem witness_LostClaimLeavesTheQueueAsItWas : (claiming folding).cq.entries =
      entry (.companion 1) 2 (.step 2 40) 3 :: [entry (.key 0) 3 (.toggle 2 0) 4] ∧
    (0x44 : Byte).toNat < (claimByte 2 (claiming folding).number).toNat ∧ (claiming folding).station = .active ∧
    (claiming folding).readsFields = true := by decide +kernel

/-- The generator's contest, lost to a claim of priority 2. -/
theorem witness_LostClaimLeavesTheQueueAsItWas_generator : stating.readsFields = true ∧ stating.station = .active ∧
    stating.lc.nextCell = 12 ∧ stating.lc.claimOpen = false ∧ stating.lc.contest = none ∧ stating.lc.claimBits = [] ∧
    stating.msu.frame = .cleared .claim ∧ stating.cq.entries = [] ∧ stating.conf.restatement ≤ stating.rg.gap ∧
    stating.chosenItem = some (.rotation 36) ∧ (0x44 : Byte).toNat < (claimByte 6 stating.number).toNat := by decide +kernel

/-- One cell at a receiver: the end of kind 10, of malformed data (a STEP of 0), of a check that is not the register's, and the
first pad cell of a CAPTURE. -/
theorem witness_ReceivedMessageSettlesAsSent_cells :
    let at3 := fun cells : List Bool => receiving .muted 0 (20 + cells.length) cells false
    let kind10 := [true, false, true]
    let step := [false, false, false, true, false, false, true, false] ++ List.replicate 11 false
    let check := [false, false, true, true] ++ List.replicate 15 false
    let pad := [false, true, false, false] ++ List.replicate 16 false
    (∀ cells ∈ [kind10, step, check, pad], (at3 cells).readsFields = true ∧ (at3 cells).msu.frame.phase = .message ∧
      (at3 cells).msu.frame.role = .receiver ∧ (at3 cells).lc.nextCell = 20 + (at3 cells).msu.frame.cells.length ∧
      (at3 cells).lc.nextCell ≤ 88 ∧ (at3 cells).msu.frame.faultFound = false) ∧
    10 ≤ natOfBits (kind10 ++ [false]) ∧
    (step ++ [false]).length = 4 + 8 * dataLength 1 ∧ malformed 1 ((step ++ [false]).drop 4) = true ∧
    (check ++ [false]).length = 12 + 8 * dataLength (natOfBits ((check ++ [false]).take 4)) ∧
    12 + 8 * dataLength (natOfBits ((pad ++ [false]).take 4)) < (pad ++ [false]).length := by decide +kernel

/-- Data of each length's ends: well-formed data of kind 0 and malformed data of kind 9. -/
theorem witness_ReceivedMessageSettlesAsSent_layouts :
    (Msg.level 15 3 1023).bits.length = 8 * dataLength 0 ∧ malformed 0 (Msg.level 15 3 1023).bits = false ∧
    (List.replicate 32 true).length = 8 * dataLength 9 ∧ malformed 9 (List.replicate 32 true) = true := by decide +kernel

theorem witness_ReceivedMessageSettlesAsSent : (Msg.zoneStatement 15 1023 0 32768 1).InRange ∧
    (Msg.holdStatement 2 true 61440 1023 15).InRange ∧
    ((receiving .listening 0 20 [] false).readsFields = true ∧ (receiving .listening 0 20 [] false).lc.nextCell = 20 ∧
      (receiving .listening 0 20 [] false).msu.frame.phase = .message ∧
      (receiving .listening 0 20 [] false).msu.frame.role = .receiver ∧
      (receiving .listening 0 20 [] false).msu.frame.cells = []) :=
  ⟨by simp [Msg.InRange], by simp [Msg.InRange], by decide +kernel⟩

theorem witness_MismatchWithdrawsAndScores :
    (originating .active 60 22 .queue (.toggle 1 0) 2).readsFields = true ∧
    (originating .active 60 22 .queue (.toggle 1 0) 2).station = .active ∧
    (originating .active 60 22 .queue (.toggle 1 0) 2).msu.frame.phase = .message ∧
    (originating .active 60 22 .queue (.toggle 1 0) 2).msu.frame.role = .originator ∧
    (originating .active 60 22 .queue (.toggle 1 0) 2).msu.frame.mismatch = false ∧
    (originating .active 60 22 .queue (.toggle 1 0) 2).lc.nextCell =
      20 + (originating .active 60 22 .queue (.toggle 1 0) 2).msu.frame.cells.length ∧
    (originating .active 60 22 .queue (.toggle 1 0) 2).msu.frame.stream[2]? = some true ∧
    (originating .active 0 88 .queue (.toggle 1 0) 68).msu.frame.stream[68]? = none := by decide +kernel

/-- An originator before a sent 0, before a pad cell, and after a mismatch. -/
theorem witness_MismatchWithdrawsAndScores_others :
    (originating .active 60 20 .queue (.toggle 1 0) 0).msu.frame.stream[0]? = some false ∧
    (originating .active 60 88 .queue (.toggle 1 0) 68).lc.nextCell ≤ 88 ∧
    (let s := after (.message [false] true []) (originating .active 60 22 .queue (.toggle 1 0) 2)
     s.readsFields = true ∧ s.station = .muted ∧ s.msu.frame.phase = .message ∧ s.msu.frame.role = .originator ∧
      s.msu.frame.mismatch = true ∧ s.lc.nextCell = 20 + s.msu.frame.cells.length) := by decide +kernel

theorem witness_VetoCellGivesTheResult :
    (receiving .active 63 89 (List.replicate 69 true) true).readsFields = true ∧
    (receiving .active 63 89 (List.replicate 69 true) true).lc.nextCell = 89 ∧
    (receiving .active 63 89 (List.replicate 69 true) true).msu.frame.phase = .message ∧
    (receiving .active 63 89 (List.replicate 69 true) true).msu.frame.role = .receiver ∧
    (receiving .active 63 89 (List.replicate 69 true) true).msu.frame.faultFound = true ∧
    (receiving .listening 0 89 (List.replicate 69 true) true).station = .listening ∧
    (receiving .listening 0 89 (List.replicate 69 true) false).msu.frame.faultFound = false := by decide +kernel

/-- The sample station at the veto cell of its own message. -/
def deciding (attempts : Nat) (src : Source) : State :=
  (originating .active 0 89 .queue (.toggle 1 0) 69).setCq
    { (at_ .active).cq with
      entries := [{ entry src 2 (.toggle 1 0) 1 with inFlight := true, attempts := attempts }], nextOrder := 2 }

/-- The sample station at the veto cell of its statement. -/
def restating : State := (originating .active 0 89 .generator (.zoneStatement 2 9 9 0 9) 69).setRg
  { Rg.cold with presented := some (.rotation 287) }

theorem witness_OriginatorsLearnTheirOutcome : (deciding 3 (.key 3)).readsFields = true ∧
    (deciding 3 (.key 3)).station = .active ∧ (deciding 3 (.key 3)).lc.nextCell = 89 ∧
    (deciding 3 (.key 3)).msu.frame.phase = .message ∧ (deciding 3 (.key 3)).msu.frame.role = .originator ∧
    (deciding 3 (.key 3)).msu.frame.faultFound = false ∧ (deciding 3 (.key 3)).msu.frame.veto = false ∧
    (deciding 3 (.key 3)).msu.frame.presenter = some .queue ∧ (deciding 3 (.key 3)).mu.score + 4 < 64 ∧
    (deciding 2 (.companion 9)).cq.entries.find? Entry.inFlight =
      some { entry (.companion 9) 2 (.toggle 1 0) 1 with inFlight := true, attempts := 2 } ∧
    restating.msu.frame.presenter = some .generator ∧ restating.rg.presented = some (.rotation 287) := by decide +kernel

/-- The veto cell of a SCENE STATEMENT of the rotation and of a correction. -/
theorem witness_OriginatorsLearnTheirOutcome_scenes :
    let s := fun i : Item => (originating .muted 0 89 .generator (.sceneStatement 4 7 3 false 0) 69).setRg
      { Rg.cold with presented := some i }
    (∀ i ∈ [Item.rotation 132, .correction 4 7], (s i).readsFields = true ∧ (s i).station.ticking = true ∧
      (s i).lc.nextCell = 89 ∧ (s i).msu.frame.phase = .message ∧ (s i).msu.frame.role = .originator ∧
      (s i).msu.frame.faultFound = false ∧ (s i).msu.frame.mismatch = false ∧ (s i).msu.frame.veto = false ∧
      (s i).msu.frame.presenter = some .generator ∧ (s i).rg.presented = some i) ∧
    (132 : Fin 288).val = 18 * (7 : Fin 16).val + 2 + (4 : Fin 16).val := by decide +kernel

/-- The veto cell of a message that is not settled: the generator's that mutes the station, and the queue's at a MUTED station
that has withdrawn, its fourth attempt. -/
theorem witness_OriginatorsLearnTheirOutcome_void :
    let g := (originating .active 60 89 .generator (.zoneStatement 2 9 9 0 9) 69).setRg
      { Rg.cold with presented := some (.rotation 36) }
    let w := originating .muted 60 89 .queue (.toggle 1 0) 69
    let d := (w.setMsu { w.msu with frame := { w.msu.frame with mismatch := true, veto := true } }).setCq (deciding 3 (.key 3)).cq
    (MembersOk g ∧ g.readsFields = true ∧ g.station.ticking = true ∧ g.lc.nextCell = 89 ∧ g.msu.frame.phase = .message ∧
      g.msu.frame.role = .originator ∧ g.msu.frame.faultFound = false ∧ g.msu.frame.presenter = some .generator ∧
      64 ≤ min 255 (g.mu.score + 4)) ∧
    (MembersOk d ∧ d.readsFields = true ∧ d.station = .muted ∧ d.lc.nextCell = 89 ∧ d.msu.frame.phase = .message ∧
      d.msu.frame.role = .originator ∧ d.msu.frame.faultFound = false ∧ d.msu.frame.mismatch = true ∧
      d.cq.entries.find? Entry.inFlight = some { entry (.key 3) 2 (.toggle 1 0) 1 with inFlight := true, attempts := 3 }) :=
  ⟨⟨membersOk_of _ (by decide +kernel), by decide +kernel⟩, membersOk_of _ (by decide +kernel), by decide +kernel⟩

theorem witness_PulseTrainsFollowTheFramePosition : (at_ .listening).station.running = true ∧
    (at_ .listening).ou.basis = some 200 ∧ (at_ .listening).ou.position ≤ 0 * (200 * (32736 / 4)) ∧
    0 * (200 * (32736 / 4)) ≤ cellPosition ((at_ .listening).ou.cells + 1) ∧
    (let period := 200 * (32736 / conf.outputs[(2 : Fin 4)].divider)
     let offset := conf.outputs[(2 : Fin 4)].phase.val * (period / 4)
     let fin := offset + period * 614 / 1023
     period < fin ∧ offset % period = offset ∧ 1 % period ≠ offset ∧ 1 % period ≠ fin % period ∧ 0 < 614) ∧
    ¬(50 * 32736 ≤ cellPosition ((at_ .listening).ou.cells + 1)) ∧ conf.outputs[(1 : Fin 4)].divider = 4 ∧
    982400 * 1023 = 200 * (32736 / 4) * 614 ∧
    (early .loading .reading).station.unready = true ∧ (at_ .lineFault).station.unready = false := by decide +kernel

theorem witness_OnlyMembersPullTheLine : DriveOk State.reset ∧ step (State.reset.setPending [.resetEnd]) =
    .next (after .resetEnd State.reset) := ⟨fun _ => rfl, rfl⟩

/-- The sample station meets the claim queue's invariant with an entry in a contest. -/
theorem witness_StepsKeepTheClaimQueue : FlightOk contending where
  queue := { size := by decide +kernel, flight := by decide +kernel, attempts := by decide +kernel,
             order := by decide +kernel, distinct := by decide +kernel, fresh := by decide +kernel }
  reason := fun _ _ _ => .inl ⟨_, rfl, rfl⟩
  closed := fun h => absurd h (by decide +kernel)

theorem witness_StepsKeepMembership : MembersOk (expiring (at_ .muted)) := at_membersOk

theorem witness_StepsKeepPortAndCounts : PortOk (replying .active).cp ∧ CountsOk (at_ .active) :=
  ⟨{ size := by decide +kernel, lost := by decide +kernel, idle := by decide +kernel },
    at_countsOk .active⟩

/-- A record at its cold values is sound. -/
theorem cold_ok : ZoneRecord.cold.Ok where
  target := by decide
  current := by decide
  lastOn := by decide
  fade := by decide
  done := by decide
  hold := fun _ e => absurd e (by simp [ZoneRecord.cold])
  age := by decide

/-- The zones of a state with cold zones and scenes are sound. -/
theorem holding_zonesOk : ZonesOk holding where
  zones := fun z => by
    have h : holding.ze.zones[z] = .cold := by
      show (Vector.replicate 16 ZoneRecord.cold)[z] = _
      simp
    rw [h]
    exact cold_ok
  scenes := fun sc z l e => by
    have h : (holding.ss.entry sc z).level = none := by
      show ((Vector.replicate 16 (Vector.replicate 16 SceneEntry.empty))[sc][z]).level = none
      simp [SceneEntry.empty]
    rw [h] at e
    cases e
  fail := by decide +kernel

/-- A TOGGLE in the slot is well formed. -/
theorem holding_slotOk : SlotOk holding := fun x e => by
  obtain rfl : (⟨0x23, 2, (Msg.toggle 2 0).bits, 42, false⟩ : Settled) = x := Option.some.inj e
  decide +kernel

theorem witness_StepsKeepZonesSound : ZonesOk holding ∧ SlotOk holding := ⟨holding_zonesOk, holding_slotOk⟩

theorem witness_StepsKeepMessagesWellFormed : ZonesOk holding ∧ MessagesOk holding :=
  ⟨holding_zonesOk,
    { slot := holding_slotOk
      vacant := fun h => absurd h (by decide +kernel)
      frame := { claim := fun _ => rfl, aligned := fun h => absurd h (by decide +kernel),
                 received := fun h => absurd h (by decide +kernel), originated := fun h => absurd h (by decide +kernel) }
      requests := fun e h => absurd h (by simp [holding, markableAt, at_, State.reset, Cq.cold, State.setLc, State.setOu,
        State.setMsu])
      keys := fun k => by
        refine ⟨?_, ?_, ?_⟩ <;> revert k <;> decide +kernel }⟩

/-- The sample configuration is in range. -/
theorem witness_StepsKeepTheConfiguration : LoadOk (at_ .active) ∧ (at_ .active).cl.load = .held ∧
    ((at_ .active).setPending [.resetEnd]).pending.head? ≠ some .coldReset :=
  ⟨{ idle := by decide +kernel, reading := by decide +kernel, empty := by decide +kernel, held := by decide +kernel
     buffer := fun _ => rfl, filling := by decide +kernel, shown := by decide +kernel,
     range := fun c e => by
       obtain rfl : conf = c := Option.some.inj e
       exact { width := by decide, frameLength := by decide, restatement := by decide, staleness := by decide,
               longPress := by decide, failDelay := by decide, failLevel := by decide, keys := by decide }
     restart := by decide +kernel }, rfl, by decide +kernel⟩

end Sys2Proof.Tests
end

/-! Messages and requests whose fields are in range: their data is well formed, and what a SEND or a key asks for is in
range (R56, R57, R185, R209). -/

namespace Sys2Proof.Machine

/-! ### Fields of a run of bits -/

/-- A field that begins past the first part of a run is a field of the rest. -/
theorem fieldOf_append (l r : List Bool) (a b : Nat) (h : l.length < a) :
    fieldOf (l ++ r) a b = fieldOf r (a - l.length) (b - l.length) := by
  rw [fieldOf, fieldOf, List.drop_append, List.drop_of_length_le (by omega), List.nil_append,
    Nat.sub_right_comm, (by omega : b - l.length + 1 - (a - l.length) = b + 1 - a)]

/-- A field that begins past the first bit of a run is a field of the rest. -/
theorem fieldOf_cons (x : Bool) (r : List Bool) (a b : Nat) (h : 1 < a) :
    fieldOf (x :: r) a b = fieldOf r (a - 1) (b - 1) := fieldOf_append [x] r a b h

/-- The number that begins a run is the field of its width. -/
@[simp] theorem fieldOf_bitsOfNat_append (w n : Nat) (r : List Bool) :
    fieldOf (bitsOfNat w n ++ r) 1 w = n % 2 ^ w := by
  simp [fieldOf]

/-- A number alone in a run is the field of its width. -/
@[simp] theorem fieldOf_bitsOfNat (w n : Nat) : fieldOf (bitsOfNat w n) 1 w = n % 2 ^ w := by
  simpa using fieldOf_bitsOfNat_append w n []

/-- A field carries a number below 2 to the power of its width. -/
theorem fieldOf_lt (l : List Bool) (a b : Nat) : fieldOf l a b < 2 ^ (b + 1 - a) :=
  (natOfBits_lt _).trans_le (Nat.pow_le_pow_right (by decide) (List.length_take_le _ _))

/-- A flag past the first part of a run is a flag of the rest. -/
theorem flagOf_append (l r : List Bool) (a : Nat) (h : l.length < a) :
    flagOf (l ++ r) a = flagOf r (a - l.length) := by
  rw [flagOf, flagOf, List.drop_append, List.drop_of_length_le (by omega), List.nil_append, Nat.sub_right_comm]

@[simp] theorem flagOf_cons (x : Bool) (r : List Bool) : flagOf (x :: r) 1 = x := rfl

/-- A step in range is carried and read back. -/
theorem signed10_carried10 {d : Int} (h : -511 ≤ d ∧ d ≤ 511) : signed10 (carried10 d % 1024) = d := by
  unfold signed10 carried10
  split <;> omega

/-- A 10-bit step that is neither 0 nor −512 is in range. -/
theorem signed10_inRange {n : Nat} (h : n < 1024) (h0 : n ≠ 0) (h512 : n ≠ 512) :
    -511 ≤ signed10 n ∧ signed10 n ≤ 511 ∧ signed10 n ≠ 0 := by
  unfold signed10
  split <;> omega

/-- A four-bit number past the first part of a run is one of the rest. -/
theorem nibbleOf_append (l r : List Bool) (a : Nat) (h : l.length < a) :
    nibbleOf (l ++ r) a = nibbleOf r (a - l.length) := by
  rw [nibbleOf, nibbleOf, fieldOf_append l r _ _ h, Nat.sub_add_comm h.le]

/-- A four-bit number past the first bit of a run is one of the rest. -/
theorem nibbleOf_cons (x : Bool) (r : List Bool) (a : Nat) (h : 1 < a) : nibbleOf (x :: r) a = nibbleOf r (a - 1) :=
  nibbleOf_append [x] r a h

/-- A four-bit number that begins a run is read back. -/
@[simp] theorem nibbleOf_bitsOfNat_append (z : Fin 16) (r : List Bool) : nibbleOf (bitsOfNat 4 z ++ r) 1 = z := by
  rw [nibbleOf, fieldOf_bitsOfNat_append]
  simp [Nat.mod_eq_of_lt z.isLt]

@[simp] theorem nibbleOf_bitsOfNat (z : Fin 16) : nibbleOf (bitsOfNat 4 z) 1 = z := by
  simpa using nibbleOf_bitsOfNat_append z []

/-- A byte is read back. -/
theorem byte_read (g : Byte) : BitVec.ofNat 8 (g.toNat % 256) = g := by
  simp [Nat.mod_eq_of_lt (show g.toNat < 256 from g.isLt)]

/-! ### Messages in range are well formed -/

/-- The data run of a message in range is read back as the message. -/
theorem readMsg_bits {m : Msg} (h : m.InRange) : readMsg m.kind m.bits = some m := by
  cases m with
  | step z d =>
    have hd : signed10 (carried10 d % 1024) = d := signed10_carried10 ⟨h.1, h.2.1⟩
    simp [readMsg, Msg.kind, Msg.bits, fieldOf_append, hd]
  | _ =>
    simp only [Msg.InRange] at h
    simp [readMsg, Msg.kind, Msg.bits, bitsOfByte, fieldOf_append, fieldOf_cons, nibbleOf_append, nibbleOf_cons,
      flagOf_append, byte_read] <;>
      omega

/-- The spare bits of a message's data run are 0. -/
theorem spareSet_bits (m : Msg) : spareSet m.kind m.bits = false := by
  cases m <;> simp [spareSet, spareBits, Msg.kind, Msg.bits, bitsOfByte, fieldOf_append, fieldOf_cons] <;>
    simp [fieldOf, natOfBits]

/-- A message in range meets no condition of R57. -/
theorem Msg.outOfRange_of_inRange {m : Msg} (h : m.InRange) : m.outOfRange = false := by
  cases m with
  | step z d =>
    obtain ⟨hlo, -, h0⟩ := h
    simp [Msg.outOfRange, h0]
    omega
  | zoneStatement z t c r l =>
    obtain ⟨-, -, hr, hl, -, hdone⟩ := h
    simp [Msg.outOfRange]
    omega
  | holdStatement z p r v c =>
    obtain ⟨hr, -, hon, hoff⟩ := h
    cases p
    · simp [Msg.outOfRange, hoff]
    · simp [Msg.outOfRange, hon, hr]
  | sceneStatement s z g p l =>
    obtain ⟨-, hoff⟩ := h
    cases p <;> simp [Msg.outOfRange, hoff]
  | _ => rfl

/-- The data of a message in range is well formed. -/
theorem Msg.wellFormed_of_inRange {m : Msg} (h : m.InRange) : malformed m.kind m.bits = false := by
  simp [malformed, readMsg_bits h, spareSet_bits, Msg.outOfRange_of_inRange h]

/-- A kind that is not assigned has no data to judge. -/
theorem malformed_unassigned {k : Nat} (l : List Bool) (h : 10 ≤ k) : malformed k l = false := by
  obtain ⟨n, rfl⟩ := Nat.exists_eq_add_of_le h
  rw [Nat.add_comm]
  rfl

/-! ### Requests in range -/

/-- A request in range becomes a message in range, whatever generation a CAPTURE is sent with. -/
theorem Request.InRange.toMsg {r : Request} (h : r.InRange) (gen : Fin 16 → Byte) : (r.toMsg gen).InRange := by
  cases r <;> exact h

/-- A step held at ±511 is in range when it is not 0. -/
theorem foldSteps_inRange (z : Fin 16) {a b : Int} (h : foldSteps a b ≠ 0) :
    (Request.step z (foldSteps a b)).InRange := by
  refine ⟨?_, ?_, h⟩ <;> unfold foldSteps <;> omega

/-- A SEND body that passes its field tests carries a priority of R80 and a request in range. -/
theorem sendRequest_inRange {body : List Byte} {r : Request} (hf : sendFault body = none)
    (hr : sendRequest body = some r) : (body.getD 0 0#8).toNat ≤ 5 ∧ r.InRange := by
  unfold sendFault at hf
  dsimp only at hf
  unfold sendRequest at hr
  generalize hrun : bitsOfBytes (body.drop 2) = run at hf hr
  generalize (body.getD 1 0#8).toNat = kind at hf hr
  have hlt := fieldOf_lt run
  split at hf <;> [cases hf; skip]
  next hprio =>
  refine ⟨by omega, ?_⟩
  split at hf <;> [cases hf; skip]
  next hkind =>
  split at hf <;> [cases hf; skip]
  next hstep =>
  interval_cases kind <;>
    simp only [readMsg, Msg.toRequest, Option.bind_some, Option.some.injEq] at hr <;> subst hr <;>
    simp only [Request.InRange, Request.toMsg, Msg.InRange]
  · exact Nat.le_of_lt_succ (hlt 9 18)
  · exact signed10_inRange (hlt 5 14) (by omega) (by omega)
  · exact Nat.le_of_lt_succ (hlt 13 22)

/-! ### Key settings -/

/-- A station without a configuration has every key OFF. -/
theorem blank_keysOk (k : Fin 4) : (Configuration.blank.keys[k]).Ok := by
  have h : Configuration.blank.keys[k] = ⟨.off, false, 0, 0, 0, 0, 0⟩ := by simp [Configuration.blank]
  rw [h]
  exact { prio := by decide, step := by simp, level := by simp }

/-- In a valid block no byte is at fault. -/
theorem byteFault_of_valid {b : List Byte} (h : faultIndex b = none) {i : Nat} (hi : i < 39) :
    byteFault b i = false := by
  simpa using List.find?_eq_none.1 h i (List.mem_range.2 hi)

/-- Byte `j` of the key record of channel `k` is judged as a key byte. -/
theorem byteFault_key (b : List Byte) (k : Fin 4) (j : Fin 5) :
    byteFault b (18 + 5 * k + j) = keyByteFault b (18 + 5 * k) j := by
  fin_cases k <;> fin_cases j <;> rfl

theorem keyFunction_eq_toggleDim {n : Nat} (h : keyFunction n = .toggleDim) : n = 1 := by
  unfold keyFunction at h
  split at h <;> simp_all

theorem keyFunction_eq_level {n : Nat} (h : keyFunction n = .level) : n = 4 := by
  unfold keyFunction at h
  split at h <;> simp_all

/-- The key records of a valid block give requests in range (R209, R211). -/
theorem readBlock_keysOk {b : List Byte} (h : faultIndex b = none) (k : Fin 4) : ((readBlock b).keys[k]).Ok := by
  have hbyte (j : Fin 5) : keyByteFault b (18 + 5 * k) j = false := by
    rw [← byteFault_key]
    exact byteFault_of_valid h (by omega)
  have hread : (readBlock b).keys[k] = readKey b (18 + 5 * k) := by simp [readBlock]
  have h1 := hbyte 1
  have h2 := hbyte 2
  rw [hread]
  generalize 18 + 5 * k.val = r at h1 h2
  by_cases hf : blockByte b r / 32 = 0
  · exact {
      prio := by simp_all [keyByteFault, readKey]
      step := fun e => by simp [keyFunction_eq_toggleDim e] at hf
      level := fun e => by simp [keyFunction_eq_level e] at hf }
  · simp [keyByteFault, hf] at h1 h2
    exact {
      prio := h1.1
      step := fun e => by
        have hp := h2.1.1.2 (keyFunction_eq_toggleDim e)
        exact ⟨Nat.pos_of_ne_zero hp.1, hp.2⟩
      level := fun e => h2.2 (keyFunction_eq_level e) }

end Sys2Proof.Machine

/-! What the keys offer and what the claim queue holds: requests in range, of a priority of R80, through every operation
of the queue (chapters 4 and 8). -/

namespace Sys2Proof.Machine

/-! ### The offers of a key channel (R168 to R173) -/

theorem KeySettings.Ok.stepRequest {c : KeySettings} (h : c.Ok) (hf : c.func = .toggleDim) (down : Bool) :
    (c.stepRequest down).InRange := by
  have hp := h.step hf
  cases down <;> simp [KeySettings.stepRequest, Request.InRange, Request.toMsg, Msg.InRange] <;> omega

theorem KeySettings.occupyRequest_inRange (c : KeySettings) : c.occupyRequest.InRange :=
  Nat.le_of_lt_succ (Nat.mod_lt c.param (by decide))

theorem KeySettings.Ok.pressRequest {c : KeySettings} (h : c.Ok) {r : Request} (e : c.pressRequest = some r) :
    r.InRange := by
  unfold KeySettings.pressRequest at e
  split at e
  · obtain rfl := Option.some.inj e
    exact c.occupyRequest_inRange
  · next hf =>
    obtain rfl := Option.some.inj e
    exact h.level hf
  · cases e

theorem KeySettings.releaseRequest_inRange {c : KeySettings} {long : Bool} {r : Request}
    (e : c.releaseRequest long = some r) : r.InRange := by
  unfold KeySettings.releaseRequest at e
  split at e <;> cases long <;> simp at e <;> subst e <;> trivial

theorem KeySettings.Ok.thresholdRequest {c : KeySettings} (h : c.Ok) {down : Bool} {r : Request}
    (e : c.thresholdRequest down = some r) : r.InRange := by
  unfold KeySettings.thresholdRequest at e
  split at e
  · next hf =>
    obtain rfl := Option.some.inj e
    exact h.stepRequest hf down
  · obtain rfl := Option.some.inj e
    trivial
  · cases e

theorem KeySettings.Ok.repeatRequest {c : KeySettings} (h : c.Ok) {down : Bool} {r : Request}
    (e : c.repeatRequest down = some r) : r.InRange := by
  unfold KeySettings.repeatRequest at e
  split at e
  · next hf =>
    obtain rfl := Option.some.inj e
    exact h.stepRequest hf down
  · obtain rfl := Option.some.inj e
    exact c.occupyRequest_inRange
  · cases e

/-- What a held key offers is in range. -/
theorem KeySettings.Ok.hold {c : KeySettings} (h : c.Ok) {k : KeyChannel} {threshold : Nat} {r : Request}
    (e : (k.hold c threshold).2 = some r) : r.InRange := by
  unfold KeyChannel.hold at e
  dsimp only at e
  split at e
  · exact h.thresholdRequest e
  · split at e
    · exact h.repeatRequest e
    · cases e

/-- What a key channel offers at a mark is in range. -/
theorem KeySettings.Ok.atMark {c : KeySettings} (h : c.Ok) {k : KeyChannel} {threshold : Nat} {high : Bool}
    {r : Request} (e : (k.atMark c threshold high).2 = some r) : r.InRange := by
  unfold KeyChannel.atMark at e
  split at e
  · cases e
  · dsimp only at e
    split at e
    · split at e
      · exact h.pressRequest e
      · exact KeySettings.releaseRequest_inRange e
    · split at e
      · exact h.hold e
      · cases e

/-! ### The waiting requests (R80) -/

/-- Every request of a list of entries is in range and of a priority of R80. -/
def RequestsOk (l : List Entry) : Prop := ∀ e ∈ l, e.prio ≤ 5 ∧ e.req.InRange

theorem RequestsOk.nil : RequestsOk [] := fun _ h => absurd h (List.not_mem_nil)

theorem RequestsOk.filter {l : List Entry} (h : RequestsOk l) (p : Entry → Bool) : RequestsOk (l.filter p) :=
  fun e he => h e (List.mem_of_mem_filter he)

theorem RequestsOk.map {l : List Entry} (h : RequestsOk l) {f : Entry → Entry}
    (hf : ∀ e ∈ l, (f e).prio = e.prio ∧ ((f e).req = e.req ∨ (f e).req.InRange)) : RequestsOk (l.map f) := by
  intro e he
  obtain ⟨d, hd, rfl⟩ := List.mem_map.1 he
  obtain ⟨hprio, hreq⟩ := hf d hd
  refine ⟨hprio ▸ (h d hd).1, ?_⟩
  rcases hreq with hreq | hreq
  · exact hreq ▸ (h d hd).2
  · exact hreq

theorem RequestsOk.insertEntry {l : List Entry} (h : RequestsOk l) {e : Entry} (hp : e.prio ≤ 5) (hr : e.req.InRange) :
    RequestsOk (insertEntry e l) := by
  intro x hx
  rcases mem_insertEntry.1 hx with rfl | hx
  · exact ⟨hp, hr⟩
  · exact h x hx

theorem RequestsOk.land {q : Cq} (h : RequestsOk q.entries) : RequestsOk q.land.entries :=
  h.map fun _ _ => ⟨rfl, .inl rfl⟩

theorem RequestsOk.launch {q : Cq} (h : RequestsOk q.entries) : RequestsOk q.launch.entries := by
  unfold Cq.launch
  split
  · exact h
  · next e es he =>
    rw [he] at h
    intro x hx
    rcases List.mem_cons.1 hx with rfl | hx
    · exact h e List.mem_cons_self
    · exact h x (List.mem_cons_of_mem e hx)

theorem RequestsOk.sent {q : Cq} (h : RequestsOk q.entries) : RequestsOk q.sent.1.entries := by
  rcases q.sent_cases with ⟨-, e⟩ | ⟨_, -, e, -⟩
  · rwa [e]
  · rw [e]
    exact h.filter _

theorem RequestsOk.void {q : Cq} (h : RequestsOk q.entries) : RequestsOk q.void.1.entries := by
  rcases q.void_cases with ⟨-, e⟩ | ⟨_, -, -, e, -⟩ | ⟨_, -, -, -, -, e⟩
  · rwa [e]
  · rw [e]
    exact h.filter _
  · rw [e]
    refine h.map fun x _ => ?_
    split <;> exact ⟨rfl, .inl rfl⟩

/-- Counting removed entries changes no entry. -/
theorem foldl_count_entries (l : List Entry) (k : KeyCount) (q : Cq) :
    (l.foldl (fun q e => q.count e.source k) q).entries = q.entries := by
  induction l generalizing q with
  | nil => rfl
  | cons e l ih => rw [List.foldl_cons, ih, Cq.count_entries]

/-- The sweep raises every age and leaves the entries that are not stale. -/
@[simp] theorem Cq.sweep_entries (q : Cq) (limit : Nat) :
    (q.sweep limit).1.entries = (q.entries.map Entry.older).filter fun e => !e.isStale limit := by
  unfold Cq.sweep
  exact foldl_count_entries _ _ _

theorem RequestsOk.sweep {q : Cq} (h : RequestsOk q.entries) (limit : Nat) :
    RequestsOk (q.sweep limit).1.entries := by
  rw [Cq.sweep_entries]
  exact (h.map (f := Entry.older) fun _ _ => ⟨rfl, .inl rfl⟩).filter _

theorem RequestsOk.sweepOne {q : Cq} (h : RequestsOk q.entries) (limit i : Nat) :
    RequestsOk (q.sweepOne limit i).1.entries := by
  unfold Cq.sweepOne
  split
  · exact h
  · split
    · rw [Cq.count_entries]
      exact fun e he => h e (List.mem_of_mem_eraseIdx he)
    · exact h

theorem RequestsOk.enrol {q : Cq} (h : RequestsOk q.entries) (src : Source) {prio : Nat} {req : Request}
    (hp : prio ≤ 5) (hr : req.InRange) (out : List Report) : RequestsOk (q.enrol src prio req out).cq.entries := by
  rcases q.enrol_cases src prio req out with ⟨-, e⟩ | ⟨-, e⟩ <;> rw [e]
  · exact h.insertEntry hp hr
  · rwa [Cq.count_entries]

/-- An offer in range leaves requests in range: admitted, folded into a waiting STEP, or cancelling a waiting one. -/
theorem RequestsOk.take {q : Cq} (h : RequestsOk q.entries) (src : Source) {prio : Nat} {req : Request} (hp : prio ≤ 5)
    (hr : req.InRange) : RequestsOk (q.take src prio req).cq.entries := by
  cases req with
  | step z d =>
    unfold Cq.take
    dsimp only
    split
    · exact h.enrol src hp hr []
    · split
      · exact h.filter _
      · next hsum =>
        refine h.map fun e _ => ?_
        split
        · exact ⟨rfl, .inr (foldSteps_inRange z hsum)⟩
        · exact ⟨rfl, .inl rfl⟩
  | toggle z c =>
    unfold Cq.take
    dsimp only
    split
    · exact h.enrol src hp hr []
    · exact h.filter _
  | capture s => exact h.enrol src hp hr []
  | _ => exact RequestsOk.enrol (h.filter _) src hp hr _

end Sys2Proof.Machine

/-! The frame record agrees with the cell read next, cell by cell: what a win, a reading, a read-back and the veto cell
keep of it, and that a message which settles is well formed (R59 to R63, R66, R70). -/

namespace Sys2Proof.Machine

/-- The data of every kind, with kind and check, fits in the cells before the last pad cell (R8, R56). -/
theorem dataLength_le (k : Nat) : dataLength k ≤ 7 := by
  unfold dataLength
  split <;> decide

/-- A kind that has a message has data (R56). -/
theorem dataLength_pos {k : Nat} (h : k < 10) : 0 < dataLength k := by
  interval_cases k <;> decide

namespace FrameOk

/-- A record that holds no message agrees with every cell. -/
theorem of_not_message {n : Nat} {f : FrameRecord} (hp : f.phase ≠ .message) (hc : f.phase = .claim → f.cells = []) :
    FrameOk n f where
  claim := hc
  aligned h := absurd h hp
  received h := absurd h hp
  originated h := absurd h hp

theorem cleared (n : Nat) {p : Phase} (h : p ≠ .message) : FrameOk n (.cleared p) := of_not_message h fun _ => rfl

/-- Before cell 20 the record holds no message. -/
theorem phase_ne {n : Nat} {f : FrameRecord} (h : FrameOk n f) (hn : n < 20) : f.phase ≠ .message :=
  fun e => absurd (h.aligned e) (by omega)

/-- The veto of a message is no matter of the cells. -/
theorem withVeto {n : Nat} {f : FrameRecord} (h : FrameOk n f) (v : Bool) : FrameOk n { f with veto := v } :=
  ⟨h.claim, h.aligned, h.received, h.originated⟩

/-- A claim of another station begins a message at cell 20 with no cell read. -/
theorem claimed (f : FrameRecord) (hc : f.cells = []) (claim : Byte) (fault : Bool) :
    FrameOk 20 { f with phase := .message, role := .receiver, claim := claim, faultFound := fault } where
  claim h := by cases h
  aligned _ := by rw [hc]; rfl
  received _ _ _ h := by rw [hc] at h; cases h
  originated _ h := by cases h

/-- A claim that is won begins the stream of a well-formed message at cell 20. -/
theorem won {f : FrameRecord} (hc : f.cells = []) (c : Contest) {m : Option Msg}
    (hm : ∀ x, m = some x → malformed x.kind x.bits = false) : FrameOk 20 (f.won c m) where
  claim h := by cases h
  aligned _ := by simp [FrameRecord.won, hc]
  received _ h := by cases h
  originated _ _ := by
    refine ⟨?_, by simp [FrameRecord.won, hc]⟩
    cases m with
    | none => exact .inl rfl
    | some x => exact .inr ⟨f.check, x, rfl, hm x rfl⟩

/-- The originator's next cell is recorded as sent (R59, R63). -/
theorem record {n : Nat} {f : FrameRecord} (h : FrameOk n f) (hp : f.phase = .message) (ho : f.role = .originator)
    (hn : n ≤ 88) (mismatch veto : Bool) :
    FrameOk (n + 1) { f with
      cells := f.cells ++ [(f.stream[f.cells.length]?).getD true], mismatch := mismatch, veto := veto } where
  claim hc := absurd (hp.symm.trans hc) (by decide)
  aligned _ := by
    have := h.aligned hp
    simp only [List.length_append, List.length_singleton]
    omega
  received _ hr := absurd (ho.symm.trans hr) (by decide)
  originated _ _ := by
    obtain ⟨hs, hcells⟩ := h.originated hp ho
    refine ⟨hs, ?_⟩
    have hlen : f.cells.length < (f.stream ++ List.replicate 69 true).length := by
      have := h.aligned hp
      simp only [List.length_append, List.length_replicate]
      omega
    have hsent : (f.stream ++ List.replicate 69 true)[f.cells.length] = (f.stream[f.cells.length]?).getD true := by
      by_cases hin : f.cells.length < f.stream.length
      · simp [List.getElem_append_left hin, hin]
      · have hout := Nat.le_of_not_lt hin
        rw [List.getElem_append_right hout, List.getElem_replicate, List.getElem?_eq_none hout, Option.getD_none]
    rw [List.length_append, List.length_singleton, List.take_add_one, List.getElem?_eq_getElem hlen, hsent, ← hcells]
    rfl

end FrameOk

/-- A record whose cells begin with a message's kind and data holds that kind and that data (R210). -/
theorem FrameRecord.holds_of_cells {f : FrameRecord} {m : Msg} {rest : List Bool}
    (h : f.cells = bitsOfNat 4 m.kind ++ (m.bits ++ rest)) : f.kind = m.kind ∧ f.data = m.bits := by
  have hk : f.kind = m.kind := by
    rw [FrameRecord.kind, h, List.take_left' (bitsOfNat_length 4 _), natOfBits_bitsOfNat]
    exact Nat.mod_eq_of_lt (m.kind_lt.trans (by decide))
  refine ⟨hk, ?_⟩
  rw [FrameRecord.data, hk, h, List.drop_left' (bitsOfNat_length 4 _), List.take_left' m.bits_length]

/-- The 69 cells of a stream that is sent whole begin with the message's kind and data (R8, R62). -/
theorem streamOf_cells (check : Byte) (m : Msg) (pad : List Bool) :
    ∃ rest, (streamOf check m ++ pad).take 69 = bitsOfNat 4 m.kind ++ (m.bits ++ rest) := by
  have hn := dataLength_le m.kind
  have hlen : (bitsOfNat 4 m.kind ++ m.bits).length ≤ 69 := by
    rw [List.length_append, bitsOfNat_length, m.bits_length]
    omega
  rw [streamOf, List.append_assoc, List.take_append, List.take_of_length_le hlen]
  exact ⟨_, List.append_assoc _ _ _⟩

/-- A message that settles is well formed: a receiver has judged its data, and an originator has sent what it was given
(R57, R70). -/
theorem FrameOk.settled {f : FrameRecord} {r : Reading} (h : FrameOk 89 f) (hp : f.phase = .message)
    (hv : f.verdict r = .settled) : malformed f.kind f.data = false := by
  have hlen : f.cells.length = 69 := by
    have := h.aligned hp
    omega
  have hn := dataLength_le f.kind
  cases hrole : f.role with
  | receiver =>
    have hfault : f.faultFound = false := by
      unfold FrameRecord.verdict at hv
      split at hv <;> [skip; cases hv]
      split at hv <;> [cases hv; skip]
      simp_all
    exact h.received hp hrole hfault (by omega) (by omega)
  | originator =>
    obtain ⟨hs, hcells⟩ := h.originated hp hrole
    rw [hlen] at hcells
    rcases hs with hs | ⟨check, m, hs, hm⟩
    · have hk : f.kind = 15 := by rw [FrameRecord.kind, hcells, hs]; decide
      exact malformed_unassigned _ (by omega)
    · obtain ⟨rest, hrest⟩ := streamOf_cells check m (List.replicate 69 true)
      obtain ⟨hk, hd⟩ := FrameRecord.holds_of_cells (hcells.trans (hs ▸ hrest))
      rwa [hk, hd]

/-- The tests of a receiver's reading: what a reading that leaves no fault found has not shown (R66, R67). -/
theorem FrameRecord.receive_faultFound {f : FrameRecord} {r : Reading} (h : (f.receive r).faultFound = false) :
    f.faultFound = false ∧
    (f.cells.length = 3 → (f.receive r).kind < 10) ∧
    (4 ≤ f.cells.length → f.cells.length = 3 + 8 * dataLength (f.receive r).kind →
      malformed (f.receive r).kind (f.receive r).data = false) := by
  change (f.faultFound || (f.cells.length == 3 && decide (10 ≤ (f.receive r).kind)) ||
    (decide (4 ≤ f.cells.length) && f.cells.length == 3 + 8 * dataLength (f.receive r).kind &&
      malformed (f.receive r).kind (f.receive r).data) || _ || _) = false at h
  simp only [Bool.or_eq_false_iff, Bool.and_eq_false_iff, decide_eq_false_iff_not, beq_eq_false_iff_ne, not_le] at h
  obtain ⟨⟨⟨⟨hbefore, hkind⟩, hdata⟩, -⟩, -⟩ := h
  exact ⟨hbefore, fun h3 => hkind.resolve_left (absurd h3),
    fun h4 hlast => hdata.resolve_left fun h => h.elim (by omega) (absurd hlast)⟩

/-- The kind is fixed once four cells are read. -/
theorem FrameRecord.receive_kind (f : FrameRecord) (r : Reading) (h : 4 ≤ f.cells.length) :
    (f.receive r).kind = f.kind := by
  simp [FrameRecord.kind, FrameRecord.receive, List.take_append_of_le_length h]

/-- The data is fixed once it is read whole. -/
theorem FrameRecord.receive_data (f : FrameRecord) (r : Reading) (h : 4 ≤ f.cells.length)
    (hd : 4 + 8 * dataLength f.kind ≤ f.cells.length) : (f.receive r).data = f.data := by
  rw [FrameRecord.data, FrameRecord.data, receive_kind f r h]
  have hdrop : (f.receive r).cells.drop 4 = f.cells.drop 4 ++ [r] := List.drop_append_of_le_length h
  rw [hdrop, List.take_append_of_le_length (by simp; omega)]

/-- A receiver's reading keeps the record sound: the data is judged at its last cell (R57, R66). -/
theorem FrameOk.receive {n : Nat} {f : FrameRecord} (h : FrameOk n f) (hp : f.phase = .message)
    (hr : f.role = .receiver) (r : Reading) : FrameOk (n + 1) (f.receive r) where
  claim hc := absurd (hp.symm.trans hc) (by decide)
  aligned _ := by
    have := h.aligned hp
    simp only [FrameRecord.receive, List.length_append, List.length_singleton]
    omega
  originated _ ho := absurd (hr.symm.trans ho) (by decide)
  received _ _ hfault h4 hread := by
    obtain ⟨hbefore, hkind, hdata⟩ := FrameRecord.receive_faultFound hfault
    have hlen : (f.receive r).cells.length = f.cells.length + 1 := by simp [FrameRecord.receive]
    rw [hlen] at h4 hread
    by_cases hwhole : 4 ≤ f.cells.length ∧ 4 + 8 * dataLength f.kind ≤ f.cells.length
    · rw [FrameRecord.receive_kind f r hwhole.1, FrameRecord.receive_data f r hwhole.1 hwhole.2]
      exact h.received hp hr hbefore hwhole.1 hwhole.2
    · by_cases h3 : f.cells.length = 3
      · have := dataLength_pos (hkind h3)
        omega
      · have hk := FrameRecord.receive_kind f r (by omega)
        exact hdata (by omega) (by rw [hk] at hread ⊢; omega)

end Sys2Proof.Machine

/-! What the shared operations keep of the messages, and what each command of a cell's field does to them (R57, R59,
R75, R80). -/

namespace Sys2Proof.Machine

/-! ### States that agree on what the messages need -/

/-- From `s` to `t` the slot, the configuration, the soundness of the requests and the reading of fields are kept; the
frame record may have changed. -/
structure Alike (s t : State) : Prop where
  slot     : t.msu.slot = s.msu.slot
  reading  : s.station.reading = true → t.station.reading = true
  requests : RequestsOk s.cq.entries → RequestsOk t.cq.entries
  conf     : t.conf = s.conf

/-- The frame record and the cell it waits for are kept as well. -/
structure SameMessages (s t : State) : Prop extends Alike s t where
  frame    : t.msu.frame = s.msu.frame
  nextCell : t.lc.nextCell = s.lc.nextCell

/-- From `s` to `t` the frame has been given up: record and slot are empty (R75, R76). -/
structure GaveUp (s t : State) : Prop where
  slot     : t.msu.slot = none
  frame    : t.msu.frame = .cleared .noFrame
  station  : t.station = .lineFault
  requests : RequestsOk s.cq.entries → RequestsOk t.cq.entries
  conf     : t.conf = s.conf

theorem Alike.refl (s : State) : Alike s s := ⟨rfl, id, id, rfl⟩

theorem Alike.trans {s t u : State} (h : Alike s t) (k : Alike t u) : Alike s u :=
  ⟨k.slot.trans h.slot, k.reading ∘ h.reading, k.requests ∘ h.requests, k.conf.trans h.conf⟩

theorem SameMessages.refl (s : State) : SameMessages s s := ⟨.refl s, rfl, rfl⟩

theorem SameMessages.trans {s t u : State} (h : SameMessages s t) (k : SameMessages t u) : SameMessages s u :=
  ⟨h.toAlike.trans k.toAlike, k.frame.trans h.frame, k.nextCell.trans h.nextCell⟩

theorem SameMessages.gaveUp {s t u : State} (h : SameMessages s t) (k : GaveUp t u) : GaveUp s u :=
  ⟨k.slot, k.frame, k.station, k.requests ∘ h.requests, k.conf.trans h.conf⟩

namespace MessagesOk

theorem requestsOk {s : State} (h : MessagesOk s) : RequestsOk s.cq.entries := h.requests

/-- With slot, requests and keys as they were, a sound frame record is enough. -/
theorem of_alike {s t : State} (h : MessagesOk s) (a : Alike s t) (f : FrameOk t.lc.nextCell t.msu.frame) :
    MessagesOk t where
  slot x hx := h.slot x (a.slot ▸ hx)
  vacant hr := by
    rw [a.slot]
    refine h.vacant (Bool.eq_false_iff.2 fun hs => ?_)
    rw [a.reading hs] at hr
    cases hr
  frame := f
  requests := a.requests h.requests
  keys k := a.conf ▸ h.keys k

theorem of_same {s t : State} (h : MessagesOk s) (a : SameMessages s t) : MessagesOk t :=
  h.of_alike a.toAlike (by rw [a.frame, a.nextCell]; exact h.frame)

/-- A cleared record without a message and an empty slot ask for sound requests and keys alone. -/
theorem of_cleared {t : State} {p : Phase} (hp : p ≠ .message) (hf : t.msu.frame = .cleared p)
    (hs : t.msu.slot = none) (hr : RequestsOk t.cq.entries) (hk : ∀ k : Fin 4, t.conf.keys[k].Ok) :
    MessagesOk t where
  slot x hx := by rw [hs] at hx; cases hx
  vacant _ := hs
  frame := hf ▸ .cleared _ hp
  requests := hr
  keys := hk

theorem of_gaveUp {s t : State} (h : MessagesOk s) (g : GaveUp s t) : MessagesOk t :=
  of_cleared (by decide) g.frame g.slot (g.requests h.requests) fun k => g.conf ▸ h.keys k

end MessagesOk

/-! ### The shared operations -/

theorem Work.finish_same (order : OfferOrder) (w : Work) : SameMessages w.s (w.finish order) :=
  ⟨⟨rfl, id, id, rfl⟩, rfl, rfl⟩

theorem Work.finish_keeps_messages (order : OfferOrder) {w : Work} (h : MessagesOk w.s) : MessagesOk (w.finish order) :=
  h.of_same (w.finish_same order)

theorem State.endContest_same (s : State) : SameMessages s s.endContest := by
  rcases s.endContest_cases with ⟨-, e⟩ | ⟨_, -, -, e⟩ | ⟨_, -, -, e⟩ <;> rw [e]
  · exact .refl s
  · exact ⟨⟨rfl, id, RequestsOk.land, rfl⟩, rfl, rfl⟩
  · exact ⟨⟨rfl, id, id, rfl⟩, rfl, rfl⟩

theorem Work.voided_same (w : Work) (p : Option Presenter) : SameMessages w.s (w.voided p).s := by
  rw [Work.voided_s]
  split
  · exact .refl w.s
  · exact ⟨⟨rfl, id, id, rfl⟩, rfl, rfl⟩
  · exact ⟨⟨rfl, id, RequestsOk.void, rfl⟩, rfl, rfl⟩

theorem Work.raise_same (w : Work) (n : Nat) : SameMessages w.s (w.raise n).s := by
  rw [Work.raise_s]
  split
  · split
    · exact ⟨⟨rfl, fun _ => rfl, id, rfl⟩, rfl, rfl⟩
    · exact ⟨⟨rfl, id, id, rfl⟩, rfl, rfl⟩
  · exact .refl w.s

theorem Work.disturb_same (w : Work) : SameMessages w.s w.disturb.s := by
  rw [Work.disturb_s]
  exact ⟨⟨rfl, id, id, rfl⟩, rfl, rfl⟩

/-- Entry to LINE FAULT gives up the frame (R75, R76). -/
theorem Work.enterLineFault_gaveUp (w : Work) (c : Cause) : GaveUp w.s (w.enterLineFault c).s where
  slot := rfl
  frame := rfl
  station := rfl
  requests h := ((w.s.endContest_same.trans
    ((w.on State.endContest).voided_same (if w.s.originating then w.s.msu.frame.presenter else none))).requests h)
  conf := by
    have := (w.enterLineFault_frame c).2.2.2.2.1
    rw [State.conf, State.conf, this]

/-- A drive fault keeps the messages or gives up the frame. -/
theorem Work.driveFault_same_or_gaveUp (w : Work) : SameMessages w.s w.driveFault.s ∨ GaveUp w.s w.driveFault.s := by
  rw [Work.driveFault_s]
  split
  · exact .inl (.refl w.s)
  · dsimp only
    split
    · refine .inr (SameMessages.gaveUp ?_ (Work.enterLineFault_gaveUp _ _))
      exact ⟨⟨rfl, id, id, rfl⟩, rfl, rfl⟩
    · refine .inl (SameMessages.trans ?_ (Work.raise_same _ 8))
      exact ⟨⟨rfl, id, id, rfl⟩, rfl, rfl⟩

theorem Work.driveFault_keeps_messages {w : Work} (h : MessagesOk w.s) : MessagesOk w.driveFault.s :=
  w.driveFault_same_or_gaveUp.elim h.of_same h.of_gaveUp

theorem Work.ifFault_same_or_gaveUp (c : Bool) (w : Work) :
    SameMessages w.s (if c then w.driveFault else w).s ∨ GaveUp w.s (if c then w.driveFault else w).s := by
  cases c
  · exact .inl (.refl w.s)
  · exact w.driveFault_same_or_gaveUp

/-- After a drive fault that may have been, the rest of a cell's happening need only do with the messages as they were:
an entry to LINE FAULT breaks the happening off (R23). -/
theorem Work.unlessFaulted_keeps_messages {s : State} {v : Work} {f : Work → Work} (h : MessagesOk s)
    (hv : SameMessages s v.s ∨ GaveUp s v.s) (hf : SameMessages s v.s → MessagesOk (f v).s) :
    MessagesOk (v.unlessFaulted f).s := by
  unfold Work.unlessFaulted
  split
  · exact hv.elim h.of_same h.of_gaveUp
  · next hrun => exact hf (hv.resolve_right fun g => hrun g.station)

/-! ### The count field and the presence cell -/

/-- A reading of a cell before 20 reaches no message: LC goes on to the next cell (R59). -/
theorem MessagesOk.advance {s t : State} (h : MessagesOk s) (hk : s.lc.nextCell < 20) (a : Alike s t)
    (hf : t.msu.frame = s.msu.frame) : MessagesOk t :=
  h.of_alike a (hf ▸ .of_not_message (h.frame.phase_ne hk) h.frame.claim)

theorem Work.countComplete_same (w : Work) (active : Bool) : SameMessages w.s (w.countComplete active).s := by
  unfold Work.countComplete
  dsimp only
  split <;> split <;> exact ⟨⟨rfl, id, id, rfl⟩, rfl, rfl⟩

theorem countCell_keeps_messages (order : OfferOrder) {s : State} (h : MessagesOk s) (r : Reading) :
    MessagesOk (countCell order s r) := by
  unfold countCell
  dsimp only
  split <;> [skip; exact h]
  next hk =>
  have hv := (Work.start s).ifFault_same_or_gaveUp (s.driveFaulty s.lc.nextCell r)
  generalize (if s.driveFaulty s.lc.nextCell r = true then (Work.start s).driveFault else Work.start s) = v at hv ⊢
  refine Work.finish_keeps_messages order (Work.unlessFaulted_keeps_messages h hv fun hv => ?_)
  have hread : MessagesOk (v.on fun x => x.setLc (x.lc.readCount (s.sends s.lc.nextCell) r)).s :=
    (h.of_same hv).advance (by have := hv.nextCell; omega) ⟨rfl, id, id, rfl⟩ rfl
  split
  · exact hread.of_same (Work.countComplete_same _ _)
  · exact hread

theorem Work.ownPresence_same (w : Work) (r : Reading) : SameMessages w.s (w.ownPresence r).s := by
  unfold Work.ownPresence
  split
  · cases r <;> exact ⟨⟨rfl, id, id, rfl⟩, rfl, rfl⟩
  · cases r <;> exact .refl w.s
  · exact .refl w.s

theorem Work.otherPresence_same (w : Work) (i : Fin 32) (r : Reading) : SameMessages w.s (w.otherPresence i r).s :=
  ⟨⟨rfl, id, id, rfl⟩, rfl, rfl⟩

theorem State.nextCell_of_reads {s : State} {k : Nat} (h : s.reads k = true) : s.lc.nextCell = k := by
  simp only [State.reads, Bool.and_eq_true, beq_iff_eq] at h
  exact h.2

theorem execPresenceCell_keeps_messages {s t : State} (h : MessagesOk s) (r : Reading) (order : OfferOrder)
    (e : execPresenceCell r order s = .next t) : MessagesOk t := by
  obtain rfl := Host.Outcome.next.inj e
  split <;> [skip; exact h]
  next hk =>
  have hcell := State.nextCell_of_reads hk.1
  have hv := (Work.start s).ifFault_same_or_gaveUp (s.driveFaulty 11 r)
  generalize (if s.driveFaulty 11 r = true then (Work.start s).driveFault else Work.start s) = v at hv ⊢
  refine Work.finish_keeps_messages order (Work.unlessFaulted_keeps_messages h hv fun hv => ?_)
  have hread : MessagesOk (v.on fun x => x.setLc x.lc.advance).s :=
    (h.of_same hv).advance (by have := hv.nextCell; omega) ⟨rfl, id, id, rfl⟩ rfl
  dsimp only
  split
  · exact hread.of_same (Work.ownPresence_same _ r)
  · exact hread.of_same (Work.otherPresence_same _ _ r)

end Sys2Proof.Machine

/-! The claim field, the message and the veto cell: only a well-formed message is won, recorded and settled (R57, R61 to
R63, R66, R70, R75). -/

namespace Sys2Proof.Machine

/-! ### The zones while a claim field is read -/

theorem ZoneRecord.Ok.mark {r : ZoneRecord} (h : r.Ok) : r.mark.Ok :=
  ⟨h.target, h.current, h.lastOn, h.fade, h.done, h.hold, Nat.zero_le 64⟩

namespace ZonesOk

theorem congr {s t : State} (h : ZonesOk s) (ze : t.ze.zones = s.ze.zones) (ss : t.ss = s.ss) (cl : t.cl = s.cl) :
    ZonesOk t where
  zones z := by rw [ze]; exact h.zones z
  scenes := by rw [ss]; exact h.scenes
  fail := by rw [State.conf, cl]; exact h.fail

/-- Marking every zone unverified keeps the zones sound. -/
theorem markAll {s t : State} (h : ZonesOk s) (ze : t.ze.zones = (s.ze.markAll s.conf).zones) (ss : t.ss = s.ss)
    (cl : t.cl = s.cl) : ZonesOk t where
  zones z := by
    rw [ze, Ze.markAll_get]
    split
    · exact (h.zones z).mark
    · exact h.zones z
  scenes := by rw [ss]; exact h.scenes
  fail := by rw [State.conf, cl]; exact h.fail

theorem endContest {s : State} (h : ZonesOk s) : ZonesOk s.endContest := h.congr (by simp) (by simp) (by simp)

theorem raise {w : Work} (h : ZonesOk w.s) (n : Nat) : ZonesOk (w.raise n).s := by
  rw [Work.raise_s]
  split
  · split <;> exact h.congr rfl rfl rfl
  · exact h

theorem enterLineFault {w : Work} (h : ZonesOk w.s) (c : Cause) : ZonesOk (w.enterLineFault c).s := by
  have hvoided (p : Option Presenter) : ZonesOk ((w.on State.endContest).voided p).s := by
    rw [Work.voided_s]
    split <;> exact h.endContest.congr rfl rfl rfl
  exact (hvoided _).markAll rfl rfl rfl

theorem driveFault {w : Work} (h : ZonesOk w.s) : ZonesOk w.driveFault.s := by
  rw [Work.driveFault_s]
  split
  · exact h
  · dsimp only
    split
    · refine enterLineFault ?_ _
      exact h.congr rfl rfl rfl
    · refine raise ?_ 8
      exact h.congr rfl rfl rfl

/-! ### The message that a win sends (R62, R90, R142) -/

/-- A SCENE STATEMENT of the store's entries is in range. -/
theorem sceneMsg_inRange {s : State} (h : ZonesOk s) (sc z : Fin 16) : (s.sceneMsg sc z).InRange := by
  have hl := h.scenes sc z
  simp only [State.sceneMsg, Msg.InRange]
  cases e : (s.ss.entry sc z).level with
  | none => simp
  | some l => simpa using hl l e

/-- The statement of every item is in range. -/
theorem itemMsg_inRange {s : State} (h : ZonesOk s) (i : Item) : (s.itemMsg i).InRange := by
  cases i with
  | correction sc z => exact h.sceneMsg_inRange sc z
  | rotation p =>
    have hr := h.zones (rotationZone p)
    simp only [State.itemMsg]
    split
    · exact ⟨hr.target, hr.current, hr.fade, hr.lastOn.1, hr.lastOn.2, hr.done⟩
    · cases e : s.ze.zones[rotationZone p].hold with
      | none => exact ⟨by decide, by decide, by simp, by simp⟩
      | some o =>
        obtain ⟨⟨hpos, hmax, hvacant⟩, -⟩ := hr.hold o e
        exact ⟨hmax, hvacant, fun _ => by omega, by simp⟩
    · exact h.sceneMsg_inRange _ _

/-- The message of a won claim is well formed, whichever block presented it. -/
theorem wonMsg_wellFormed {s : State} (h : ZonesOk s) (hq : RequestsOk s.cq.entries) {p : Presenter} {m : Msg}
    (e : s.wonMsg p = some m) : malformed m.kind m.bits = false := by
  cases p with
  | queue =>
    obtain ⟨x, hx, rfl⟩ := Option.map_eq_some_iff.1 e
    exact Msg.wellFormed_of_inRange ((hq x (List.mem_of_find?_eq_some hx)).2.toMsg _)
  | generator =>
    obtain ⟨i, -, rfl⟩ := Option.map_eq_some_iff.1 e
    exact Msg.wellFormed_of_inRange (h.itemMsg_inRange i)

end ZonesOk

/-! ### The claim field -/

theorem State.openClaim_same (s : State) : SameMessages s s.openClaim := by
  unfold State.openClaim
  split <;> [skip; exact .refl s]
  split
  · exact ⟨⟨rfl, id, id, rfl⟩, rfl, rfl⟩
  · dsimp only
    split
    · exact ⟨⟨rfl, id, RequestsOk.launch, rfl⟩, rfl, rfl⟩
    · exact ⟨⟨rfl, id, id, rfl⟩, rfl, rfl⟩

theorem ZonesOk.openClaim {s : State} (h : ZonesOk s) : ZonesOk s.openClaim := by
  unfold State.openClaim
  split <;> [skip; exact h]
  split
  · exact h.congr rfl rfl rfl
  · dsimp only
    split <;> exact h.congr rfl rfl rfl

theorem ZonesOk.claimComplete {s : State} (h : ZonesOk s) : ZonesOk s.claimComplete := by
  unfold State.claimComplete
  dsimp only
  split
  · exact h.endContest.congr rfl rfl rfl
  · split <;> exact h.congr rfl rfl rfl

/-- The end of the claim field: the record holds no message, or begins one at cell 20. -/
theorem State.claimComplete_keeps_messages {s : State} (h : MessagesOk s) (hz : ZonesOk s) (hk : s.lc.nextCell = 20)
    (hp : s.msu.frame.phase = .claim) : MessagesOk s.claimComplete := by
  have hc := h.frame.claim hp
  unfold State.claimComplete
  dsimp only
  split
  · have a : Alike s s.endContest := s.endContest_same.toAlike
    exact h.of_alike ⟨a.slot, a.reading, a.requests, a.conf⟩ (.of_not_message (by simp) (by simp))
  · split
    · next c _ =>
      refine h.of_alike ⟨rfl, id, id, rfl⟩ ?_
      show FrameOk s.lc.nextCell _
      rw [hk]
      exact .won hc c fun x e => hz.wonMsg_wellFormed h.requestsOk e
    · refine h.of_alike ⟨rfl, id, id, rfl⟩ ?_
      show FrameOk s.lc.nextCell _
      rw [hk]
      exact .claimed _ hc _ _

/-- The reading of a claim cell in a state that has kept the record (R21, R61). -/
theorem State.readClaim_sound {s t : State} (h : MessagesOk s) (a : SameMessages s t) (hz : ZonesOk t)
    (hp : s.msu.frame.phase = .claim) (r : Reading) :
    let u := if s.lc.nextCell = 19 then (t.readClaim r).claimComplete else t.readClaim r
    MessagesOk u ∧ ZonesOk u := by
  have ht := h.of_same a
  have hphase : (t.readClaim r).msu.frame.phase = .claim := (congrArg FrameRecord.phase a.frame).trans hp
  have hread : MessagesOk (t.readClaim r) :=
    ht.of_alike ⟨rfl, id, id, rfl⟩
      (.of_not_message (by rw [hphase]; decide) fun _ => ht.frame.claim hphase)
  have hzread : ZonesOk (t.readClaim r) := hz.congr rfl rfl rfl
  have hcell : (t.readClaim r).lc.nextCell = s.lc.nextCell + 1 := congrArg (· + 1) a.nextCell
  dsimp only
  split
  · next hlast => exact ⟨State.claimComplete_keeps_messages hread hzread (by omega) hphase, hzread.claimComplete⟩
  · exact ⟨hread, hzread⟩

/-- What a claim cell does before its reading is taken: a contest that the station has left or lost ends, and a drive
fault has its effects (R21, R75, R91). -/
def State.claimLine (s : State) (r : Reading) : Work :=
  let kept := if s.station = .active then s else s.endContest
  let w := if kept.sends s.lc.nextCell == some (!r) then (Work.start kept).on State.endContest else Work.start kept
  if kept.driveFaulty s.lc.nextCell r then w.driveFault else w

theorem claimCell_eq (order : OfferOrder) (s : State) (r : Reading) :
    claimCell order s r =
      if s.readsFields ∧ s.lc.claimOpen ∧ s.msu.frame.phase = .claim ∧ 12 ≤ s.lc.nextCell ∧ s.lc.nextCell ≤ 19 then
        ((s.claimLine r).unlessFaulted fun w =>
          if s.lc.nextCell = 19 then (w.on fun x => x.readClaim r).on State.claimComplete
          else w.on fun x => x.readClaim r).finish order
      else s := rfl

theorem State.claimLine_sound {s : State} (hz : ZonesOk s) (r : Reading) :
    (SameMessages s (s.claimLine r).s ∨ GaveUp s (s.claimLine r).s) ∧ ZonesOk (s.claimLine r).s := by
  unfold State.claimLine
  dsimp only
  have hkept : SameMessages s (if s.station = .active then s else s.endContest) ∧
      ZonesOk (if s.station = .active then s else s.endContest) := by
    split
    · exact ⟨.refl s, hz⟩
    · exact ⟨s.endContest_same, hz.endContest⟩
  generalize (if s.station = .active then s else s.endContest) = t at hkept ⊢
  have hlost (lost : Bool) : SameMessages s (if lost then (Work.start t).on State.endContest else Work.start t).s ∧
      ZonesOk (if lost then (Work.start t).on State.endContest else Work.start t).s := by
    cases lost
    · exact hkept
    · exact ⟨hkept.1.trans t.endContest_same, hkept.2.endContest⟩
  obtain ⟨hsame, hzones⟩ := hlost (t.sends s.lc.nextCell == some (!r))
  split
  · exact ⟨(Work.driveFault_same_or_gaveUp _).imp hsame.trans hsame.gaveUp, hzones.driveFault⟩
  · exact ⟨.inl hsame, hzones⟩

theorem Work.finish_sound (order : OfferOrder) {w : Work} (h : MessagesOk w.s ∧ ZonesOk w.s) :
    MessagesOk (w.finish order) ∧ ZonesOk (w.finish order) :=
  ⟨h.1.of_same (w.finish_same order), h.2.congr rfl rfl rfl⟩

/-- One cell of the claim field keeps the messages and the zones sound. -/
theorem claimCell_sound (order : OfferOrder) {s : State} (h : MessagesOk s) (hz : ZonesOk s) (r : Reading) :
    MessagesOk (claimCell order s r) ∧ ZonesOk (claimCell order s r) := by
  rw [claimCell_eq]
  split <;> [skip; exact ⟨h, hz⟩]
  next hk =>
  obtain ⟨hline, hzones⟩ := s.claimLine_sound hz r
  refine Work.finish_sound order ?_
  unfold Work.unlessFaulted
  split
  · exact ⟨hline.elim h.of_same h.of_gaveUp, hzones⟩
  · next hrun =>
    have hread := State.readClaim_sound h (hline.resolve_right fun g => hrun g.station) hzones hk.2.2.1 r
    by_cases hcell : s.lc.nextCell = 19 <;> simp only [hcell, if_true, if_false] at hread ⊢ <;> exact hread

theorem execClaimField_keeps_messages {s t : State} (h : MessagesOk s) (hz : ZonesOk s) (cells : List Reading)
    (order : OfferOrder) (e : execClaimField cells order s = .next t) : MessagesOk t := by
  obtain rfl := Host.Outcome.next.inj e
  have hopen : MessagesOk s.openClaim ∧ ZonesOk s.openClaim := ⟨h.of_same s.openClaim_same, hz.openClaim⟩
  exact (List.foldlRecOn (motive := fun u => MessagesOk u ∧ ZonesOk u) cells (claimCell order) hopen
    fun u hu r _ => claimCell_sound order hu.1 hu.2 r).1

/-! ### The message -/

theorem Work.receive_keeps_messages {w : Work} (h : MessagesOk w.s) (hp : w.s.msu.frame.phase = .message)
    (hr : w.s.msu.frame.role = .receiver) (r : Reading) : MessagesOk (w.receive r).s := by
  have hpad : SameMessages w.s (if w.s.msu.frame.atPad && !r then w.disturb else w).s := by
    split
    · exact w.disturb_same
    · exact .refl w.s
  unfold Work.receive
  dsimp only
  generalize (if (w.s.msu.frame.atPad && !r) = true then w.disturb else w) = v at hpad ⊢
  have hv := h.of_same hpad
  refine hv.of_alike ⟨rfl, id, id, rfl⟩ ?_
  show FrameOk (v.s.lc.nextCell + 1) (w.s.msu.frame.receive r)
  rw [hpad.nextCell]
  exact h.frame.receive hp hr r

theorem Work.readBack_keeps_messages {w : Work} (h : MessagesOk w.s) (hp : w.s.msu.frame.phase = .message)
    (hr : w.s.msu.frame.role = .originator) (hk : w.s.lc.nextCell ≤ 88) (r : Reading) :
    MessagesOk (w.readBack r).s := by
  have hkept (mismatch veto : Bool) : MessagesOk (w.on fun s => (s.setLc s.lc.advance).setFrame { w.s.msu.frame with
      cells := w.s.msu.frame.cells ++ [(w.s.msu.frame.stream[w.s.msu.frame.cells.length]?).getD true]
      mismatch := mismatch, veto := veto }).s :=
    h.of_alike ⟨rfl, id, id, rfl⟩ (h.frame.record hp hr hk mismatch veto)
  unfold Work.readBack
  dsimp only
  split
  · exact (hkept _ _).of_same (Work.raise_same _ 4)
  · exact hkept _ _

theorem messageCell_keeps_messages (faultFirst : Bool) (order : OfferOrder) {s : State} (h : MessagesOk s)
    (r : Reading) : MessagesOk (messageCell faultFirst order s r) := by
  unfold messageCell
  dsimp only
  split <;> [skip; exact h]
  next hk =>
  obtain ⟨-, hp, -, hlast⟩ := hk
  split
  · next hr => exact Work.finish_keeps_messages order (Work.receive_keeps_messages (w := .start s) h hp hr r)
  · next hr =>
    have hr : s.msu.frame.role = .originator := by
      cases e : s.msu.frame.role
      · exact absurd e hr
      · rfl
    have hback {v : Work} (a : SameMessages s v.s) : MessagesOk (v.readBack r).s :=
      Work.readBack_keeps_messages (h.of_same a) (a.frame ▸ hp) (a.frame ▸ hr) (a.nextCell ▸ hlast) r
    have hfirst := hback (v := .start s) (.refl s)
    split
    · split
      · exact Work.finish_keeps_messages order
          (Work.unlessFaulted_keeps_messages h (Work.start s).driveFault_same_or_gaveUp hback)
      · exact Work.finish_keeps_messages order (Work.driveFault_keeps_messages hfirst)
    · exact Work.finish_keeps_messages order hfirst

/-! ### The veto cell -/

theorem State.decideVeto_keeps_messages {s : State} (h : MessagesOk s) : MessagesOk s.decideVeto :=
  h.of_alike ⟨rfl, id, id, rfl⟩ (h.frame.withVeto _)

/-- The result of cell 89 settles a well-formed message or leaves the slot empty (R59, R70). -/
theorem State.takeResult_keeps_messages {s : State} (h : MessagesOk s) (hrun : s.station.reading = true)
    (hp : s.msu.frame.phase = .message) (hk : s.lc.nextCell = 89) (r : Reading) :
    MessagesOk (s.takeResult (s.msu.frame.verdict r)) where
  slot x hx := by
    have hx : (if s.msu.frame.verdict r = .settled then some (s.msu.frame.settledAs s.lc.count) else none) = some x :=
      hx
    split at hx <;> [skip; cases hx]
    next hv =>
    obtain rfl := Option.some.inj hx
    exact (hk ▸ h.frame).settled hp hv
  vacant hr := by
    have hr : s.station.reading = false := hr
    rw [hrun] at hr
    cases hr
  frame := .of_not_message (by simp [State.takeResult]) (by simp [State.takeResult])
  requests := by
    cases s.msu.frame.verdict r <;> exact h.requests
  keys := h.keys

theorem State.statementSettled_same (s : State) : SameMessages s s.statementSettled := by
  unfold State.statementSettled
  split
  · exact .refl s
  · dsimp only
    split <;> split <;> exact ⟨⟨rfl, id, id, rfl⟩, rfl, rfl⟩

theorem Work.outcomeOf_same (w : Work) (v : Verdict) (p : Option Presenter) : SameMessages w.s (w.outcomeOf v p).s := by
  unfold Work.outcomeOf
  split
  · have hown : SameMessages w.s (w.on State.ownSettled).s := ⟨⟨rfl, id, id, rfl⟩, rfl, rfl⟩
    dsimp only
    split
    · exact hown.trans ⟨⟨rfl, id, RequestsOk.sent, rfl⟩, rfl, rfl⟩
    · exact hown.trans (State.statementSettled_same _)
    · exact hown
  · exact w.voided_same p

theorem Work.readVeto_keeps_messages {w : Work} (h : MessagesOk w.s) (hrun : w.s.station.reading = true)
    (hp : w.s.msu.frame.phase = .message) (hk : w.s.lc.nextCell = 89) (r : Reading) : MessagesOk (w.readVeto r).s := by
  unfold Work.readVeto
  dsimp only
  have hraised : SameMessages w.s
      (if w.s.msu.frame.role = .receiver ∧ w.s.msu.frame.faultFound = true then w.raise 1 else w).s := by
    split
    · exact w.raise_same 1
    · exact .refl w.s
  generalize (if w.s.msu.frame.role = .receiver ∧ w.s.msu.frame.faultFound = true then w.raise 1 else w) = v
    at hraised ⊢
  have hresult : MessagesOk (v.on fun s => s.takeResult (w.s.msu.frame.verdict r)).s := by
    rw [← hraised.frame]
    exact State.takeResult_keeps_messages (h.of_same hraised) (hraised.reading hrun) (hraised.frame ▸ hp)
      (hraised.nextCell.trans hk) r
  generalize (v.on fun s => s.takeResult (w.s.msu.frame.verdict r)) = u at hresult ⊢
  have hmarked : MessagesOk (if w.s.msu.frame.verdict r = .discarded then u.on State.markZones else u).s := by
    split
    · exact hresult.of_same ⟨⟨rfl, id, id, rfl⟩, rfl, rfl⟩
    · exact hresult
  generalize (if w.s.msu.frame.verdict r = .discarded then u.on State.markZones else u) = x at hmarked ⊢
  split
  · refine MessagesOk.of_same ?_ (Work.outcomeOf_same _ _ _)
    split
    · exact hmarked.of_same (x.raise_same 4)
    · exact hmarked
  · exact hmarked

theorem execVetoCell_keeps_messages {s t : State} (h : MessagesOk s) (r : Reading) (faultFirst : Bool)
    (order : OfferOrder) (e : execVetoCell r faultFirst order s = .next t) : MessagesOk t := by
  obtain rfl := Host.Outcome.next.inj e
  split <;> [skip; exact h]
  next hk =>
  obtain ⟨hreads, hp⟩ := hk
  have hcell := State.nextCell_of_reads hreads
  have hrun : s.station.reading = true := by
    simp only [State.reads, State.readsFields, Bool.and_eq_true] at hreads
    exact hreads.1.1
  have hdecided := State.decideVeto_keeps_messages h
  have hveto {v : Work} (a : SameMessages s.decideVeto v.s) : MessagesOk (v.readVeto r).s :=
    Work.readVeto_keeps_messages (hdecided.of_same a) (a.reading hrun) (a.frame ▸ hp) (a.nextCell.trans hcell) r
  have hfirst := hveto (v := .start s.decideVeto) (.refl _)
  dsimp only
  split
  · split
    · exact Work.finish_keeps_messages order
        (Work.unlessFaulted_keeps_messages hdecided (Work.start s.decideVeto).driveFault_same_or_gaveUp hveto)
    · exact Work.finish_keeps_messages order (Work.driveFault_keeps_messages hfirst)
  · exact Work.finish_keeps_messages order hfirst

end Sys2Proof.Machine

/-! A frame mark at the claim queue: what comes before its tasks leaves the queue, the keys and the settings as they
were, and each task keeps the requests in range (R88, R91, R94, R96, R167). -/

namespace Sys2Proof.Machine

/-! ### The work before the claim queue's -/

/-- A happening goes on from `v` to `w` and leaves the claim queue, the key unit, CL and CP as they were, with no
OUTCOME given. -/
structure LeavesQueue (v w : Work) : Prop where
  cq      : w.s.cq = v.s.cq
  ku      : w.s.ku = v.s.ku
  cl      : w.s.cl = v.s.cl
  cp      : w.s.cp = v.s.cp
  outcome : w.out.outcome = v.out.outcome

namespace LeavesQueue

theorem refl (w : Work) : LeavesQueue w w := ⟨rfl, rfl, rfl, rfl, rfl⟩

theorem trans {u v w : Work} (h : LeavesQueue u v) (k : LeavesQueue v w) : LeavesQueue u w :=
  ⟨k.cq.trans h.cq, k.ku.trans h.ku, k.cl.trans h.cl, k.cp.trans h.cp, k.outcome.trans h.outcome⟩

theorem conf {v w : Work} (h : LeavesQueue v w) : w.s.conf = v.s.conf := by rw [State.conf, State.conf, h.cl]

theorem endFrame (k : MarkKind) (m : MarkObs) (w : Work) : LeavesQueue w (w.endFrame k m) := by
  have hs := w.endFrame_s k m
  refine ⟨by rw [hs]; rfl, by rw [hs]; rfl, by rw [hs]; rfl, by rw [hs]; rfl, ?_⟩
  rw [Work.endFrame_out]
  split <;> rfl

theorem joinTest (w : Work) : LeavesQueue w w.joinTest := by
  unfold Work.joinTest
  dsimp only
  split
  · exact ⟨rfl, rfl, rfl, rfl, rfl⟩
  · split <;> exact ⟨rfl, rfl, rfl, rfl, rfl⟩

theorem cleanTest (w : Work) : LeavesQueue w w.cleanTest := by
  unfold Work.cleanTest
  dsimp only
  split <;> split <;> exact ⟨rfl, rfl, rfl, rfl, rfl⟩

theorem judgeFrame (k : MarkKind) (w : Work) : LeavesQueue w (w.judgeFrame k) := by
  unfold Work.judgeFrame
  dsimp only
  refine LeavesQueue.trans (v := w.on fun s => s.setMu { s.mu with
    faultBefore := w.s.station.ticking && w.s.lc.driveFault }) ⟨rfl, rfl, rfl, rfl, rfl⟩ ?_
  split
  · exact ⟨rfl, rfl, rfl, rfl, rfl⟩
  · exact .refl _
  · split
    · exact joinTest _
    · exact cleanTest _

theorem evidence (k : MarkKind) (m : MarkObs) (w : Work) : LeavesQueue w (w.evidence k m) := by
  unfold Work.evidence
  split
  · exact .refl w
  · dsimp only
    split
    · split <;> exact ⟨rfl, rfl, rfl, rfl, rfl⟩
    · exact ⟨rfl, rfl, rfl, rfl, rfl⟩

theorem zoneStages (k : MarkKind) (fullActive : Bool) (w : Work) : LeavesQueue w (w.zoneStages k fullActive) := by
  obtain ⟨ze, ss, hs⟩ := w.zoneStages_s k fullActive
  exact ⟨by rw [hs]; rfl, by rw [hs]; rfl, by rw [hs]; rfl, by rw [hs]; rfl, rfl⟩

theorem outputsAtMark (k : MarkKind) (w : Work) : LeavesQueue w (w.on (State.outputsAtMark k)) :=
  ⟨rfl, rfl, rfl, rfl, rfl⟩

end LeavesQueue

/-- A mark up to the claim queue's tasks: the end of the frame, the membership unit's judgement and evidence, the zone
stages, and the outputs. -/
def beforeQueue (k : MarkKind) (m : MarkObs) (s : State) : Work :=
  (((((Work.start s).endFrame k m).judgeFrame k).evidence k m).zoneStages k s.fullActive).on (State.outputsAtMark k)

theorem beforeQueue_leavesQueue (k : MarkKind) (m : MarkObs) (s : State) :
    LeavesQueue (.start s) (beforeQueue k m s) :=
  ((((LeavesQueue.endFrame k m _).trans (.judgeFrame k _)).trans (.evidence k m _)).trans (.zoneStages k _ _)).trans
    (.outputsAtMark k _)

/-- The claim queue's tasks of a mark, done in order after the work before them. -/
def queueWork (k : MarkKind) (m : MarkObs) (s : State) : Work :=
  (taskOrder m.queueOrder).foldl (Work.queueTask m (s.inFrame .queue)) (beforeQueue k m s)

/-- A mark is the work before the claim queue's tasks, the tasks, the COMMIT and the new frame. -/
theorem takeMark_eq (k : MarkKind) (m : MarkObs) (s : State) :
    takeMark k m s = (((queueWork k m s).commits ((handedOver k s).toList.map Settled.commit)).on
      (State.newFrame k)).finish m.offers := rfl

/-- The tasks leave the settings as they were before the mark. -/
theorem queueWork_cl (k : MarkKind) (m : MarkObs) (s : State) : (queueWork k m s).s.cl = s.cl := by
  obtain ⟨-, -, -, -, -, -, -, -, hcl, -⟩ :=
    queueTasks_same m (s.inFrame .queue) (taskOrder m.queueOrder) (beforeQueue k m s)
  exact hcl.trans (beforeQueue_leavesQueue k m s).cl

/-! ### A mark keeps the messages well formed -/

theorem Work.keyOffer_requests {w : Work} (h : RequestsOk w.s.cq.entries) (k : Fin 4) {req : Option Request}
    (hk : w.s.conf.keys[k].Ok) (hr : ∀ r, req = some r → r.InRange) : RequestsOk (w.keyOffer k req).s.cq.entries := by
  cases req with
  | none => exact h
  | some r => exact h.take (.key k) hk.prio (hr r rfl)

theorem Work.queueTask_requests {w : Work} (h : RequestsOk w.s.cq.entries) (hk : ∀ k : Fin 4, w.s.conf.keys[k].Ok)
    (m : MarkObs) (ended : Bool) (t : QueueTask) : RequestsOk (w.queueTask m ended t).s.cq.entries := by
  cases t with
  | frameEnd => cases ended <;> [exact h; exact h.land]
  | sweep => exact h.sweep w.s.conf.staleness
  | key k =>
    unfold Work.queueTask Work.keyAtMark
    refine Work.keyOffer_requests ?_ k (hk k) fun r e => (hk k).atMark e
    exact h

theorem queueTasks_requests (m : MarkObs) (ended : Bool) (l : List QueueTask) {w : Work}
    (h : RequestsOk w.s.cq.entries) (hk : ∀ k : Fin 4, w.s.conf.keys[k].Ok) :
    RequestsOk (l.foldl (Work.queueTask m ended) w).s.cq.entries := by
  induction l generalizing w with
  | nil => exact h
  | cons t l ih =>
    obtain ⟨-, -, -, -, -, -, -, -, hcl, -⟩ := Work.queueTask_same m ended w t
    refine ih (Work.queueTask_requests h hk m ended t) fun k => ?_
    rw [State.conf, hcl]
    exact hk k

/-- A mark clears the record and empties the slot; its key offers are in range (R60, R77, R167). -/
theorem takeMark_keeps_messages (k : MarkKind) (m : MarkObs) {s : State} (h : MessagesOk s) :
    MessagesOk (takeMark k m s) := by
  have hbefore := beforeQueue_leavesQueue k m s
  refine MessagesOk.of_cleared (p := if k = .local_ then .noFrame else .claim) ?_ rfl rfl ?_ fun j => ?_
  · split <;> decide
  · refine queueTasks_requests (w := beforeQueue k m s) m _ _ ?_ fun j => ?_
    · rw [hbefore.cq]
      exact h.requests
    · rw [hbefore.conf]
      exact h.keys j
  · have hconf : (takeMark k m s).conf = s.conf := congrArg (fun cl : Cl => cl.config.getD .blank) (queueWork_cl k m s)
    rw [hconf]
    exact h.keys j

end Sys2Proof.Machine

/-! Only well-formed messages settle: every command keeps the messages well formed (R57, R59, R62, R66, R75, R80,
R209). -/

namespace Sys2Proof.Machine

/-! ### Entries to LISTENING, resets and the configuration -/

/-- An entry to LISTENING gives up the frame; what waits, and the keys, must be sound (R32, R59). -/
theorem Work.enterListening_messagesOk {w : Work} (c : Cause) (hr : RequestsOk w.s.cq.entries)
    (hk : ∀ k : Fin 4, w.s.conf.keys[k].Ok) : MessagesOk (w.enterListening c).s :=
  .of_cleared (p := .noFrame) (by decide) rfl rfl hr hk

/-- The publication of a valid block starts with an empty queue and keys in range (R205, R209). -/
theorem State.configured_messagesOk (s : State) {block : List Byte} (hv : faultIndex block = none) (c : Cause) :
    MessagesOk (s.configured block c) :=
  Work.finish_keeps_messages [] (Work.enterListening_messagesOk (w := .start (s.publish (readBlock block))) c .nil
    (readBlock_keysOk hv))

theorem State.reset_messagesOk (l : List Instr) : MessagesOk (State.reset.setPending l) :=
  .of_cleared (p := .noFrame) (by decide) rfl rfl .nil blank_keysOk

theorem execResetEnd_keeps_messages {s t : State} (h : MessagesOk s) (e : execResetEnd s = .next t) : MessagesOk t := by
  obtain rfl := Host.Outcome.next.inj e
  split <;> [skip; exact h]
  next hs =>
  refine h.of_same ⟨⟨rfl, fun hr => ?_, id, rfl⟩, rfl, rfl⟩
  rw [hs] at hr
  cases hr

/-- The end of a memory read: publication, or UNCONFIGURED with the blank settings (R203). -/
theorem State.judgeRead_keeps_messages {s : State} (h : MessagesOk s) (hs : s.station = .loading) :
    MessagesOk s.judgeRead := by
  unfold State.judgeRead
  split
  · next hv => exact s.configured_messagesOk hv _
  · exact ⟨h.slot, fun _ => h.vacant (by rw [hs]; rfl), h.frame, h.requests, blank_keysOk⟩

/-- Bytes of the memory read touch neither the load state nor the configuration. -/
theorem Cl.clockIn_fold_config (block : List Byte) (cl : Cl) : (block.foldl Cl.clockIn cl).config = cl.config := by
  induction block generalizing cl with
  | nil => rfl
  | cons b block ih =>
    rw [List.foldl_cons, ih]
    unfold Cl.clockIn
    split <;> rfl

theorem execMemoryReadEnd_keeps_messages {s t : State} (h : MessagesOk s) (block : List Byte)
    (e : execMemoryReadEnd block s = .next t) : MessagesOk t := by
  obtain rfl := Host.Outcome.next.inj e
  split <;> [skip; exact h]
  next hs =>
  have hread : MessagesOk (s.setCl (block.foldl Cl.clockIn s.cl)) := by
    refine h.of_same ⟨⟨rfl, id, id, ?_⟩, rfl, rfl⟩
    rw [State.setCl_conf, Cl.clockIn_fold_config]
    rfl
  dsimp only
  split
  · exact hread
  · exact State.judgeRead_keeps_messages hread hs.1

/-! ### The companion port -/

theorem State.setCp_same (s : State) (cp : Cp) : SameMessages s (s.setCp cp) := ⟨⟨rfl, id, id, rfl⟩, rfl, rfl⟩

/-- SEND offers a request in range, since its body has passed the field tests (R185). -/
theorem State.doSend_keeps_messages {s : State} (h : MessagesOk s) (tag : Byte) {body : List Byte}
    (hf : sendFault body = none) : MessagesOk (s.doSend tag body) := by
  unfold State.doSend
  split
  · exact h.of_same (s.setCp_same _)
  · next req hreq =>
    obtain ⟨hprio, hrange⟩ := sendRequest_inRange hf hreq
    dsimp only
    split
    · exact h.of_same ⟨⟨rfl, id, fun hq => hq.take (.companion tag) hprio hrange, rfl⟩, rfl, rfl⟩
    · exact h.of_same (s.setCp_same _)

/-- The action of a request whose body has passed its field tests. -/
theorem RequestType.action_keeps_messages {s : State} (h : MessagesOk s) (t : RequestType) (tag : Byte)
    {body : List Byte} (hf : t.fieldFault body = none) : MessagesOk (t.action tag body s) := by
  cases t with
  | configure => exact State.configured_messagesOk _ hf _
  | send => exact State.doSend_keeps_messages h tag hf
  | _ => exact h.of_same ⟨⟨rfl, id, id, rfl⟩, rfl, rfl⟩

theorem State.takeRequest_keeps_messages {s : State} (h : MessagesOk s) (t : RequestType) (tag : Byte)
    (body : List Byte) : MessagesOk (s.takeRequest t tag body (t.action tag body)) := by
  rcases s.takeRequest_cases t tag body (t.action tag body) with
    ⟨-, e⟩ | ⟨-, e⟩ | ⟨-, r, e⟩ | ⟨-, -, -, -, hf, e⟩ <;> rw [e]
  · exact h
  · exact h.of_same (s.setCp_same _)
  · exact h.of_same (s.setCp_same _)
  · exact t.action_keeps_messages h tag hf

theorem State.takeFrame_keeps_messages {s : State} (h : MessagesOk s) (stored : List Byte) :
    MessagesOk (s.takeFrame stored) := by
  unfold State.takeFrame
  dsimp only
  split
  · exact State.takeRequest_keeps_messages h _ _ _
  · split <;> exact h.of_same (s.setCp_same _)

theorem State.takeByte_keeps_messages {s : State} (h : MessagesOk s) (b : Byte) (stop : Bool) :
    MessagesOk (s.takeByte b stop) := by
  have hset (a : Assembler) : MessagesOk (s.setAssembler a) := h.of_same (s.setCp_same _)
  have hfault : MessagesOk s.linkFault := (hset .hunting).of_same (State.setCp_same _ _)
  unfold State.takeByte
  dsimp only
  split
  · split
    · exact hset _
    · exact h
  · split
    · exact hset _
    · exact hfault
  · split
    · split
      · exact hset _
      · split
        · exact State.takeFrame_keeps_messages (hset _) _
        · exact hfault
    · exact hfault

theorem execByteReceived_keeps_messages {s t : State} (h : MessagesOk s) (b : Byte) (stop : Bool)
    (e : execByteReceived b stop s = .next t) : MessagesOk t := by
  obtain rfl := Host.Outcome.next.inj e
  split
  · exact h
  · exact s.takeByte_keeps_messages h b stop

theorem execFrameGapTimeout_keeps_messages {s t : State} (h : MessagesOk s) (e : execFrameGapTimeout s = .next t) :
    MessagesOk t := by
  obtain rfl := Host.Outcome.next.inj e
  split
  · exact h
  · exact h.of_same (s.setCp_same _)

/-- The warm restart empties the queue and keeps the settings (R101, R196). -/
theorem execFrameTransmitted_keeps_messages {s t : State} (h : MessagesOk s) (e : execFrameTransmitted s = .next t) :
    MessagesOk t := by
  obtain rfl := Host.Outcome.next.inj e
  split
  · exact h
  · split
    · refine Work.finish_keeps_messages [] (Work.enterListening_messagesOk .restart .nil ?_)
      exact h.keys
    · exact h.of_same (s.setCp_same _)

/-! ### Cells, faults and clears -/

@[simp] theorem Lc.measureSilence_nextCell (lc : Lc) (own threshold d : Nat) (transition : Bool) :
    (lc.measureSilence own threshold d transition).nextCell = lc.nextCell := by
  rcases lc.measureSilence_cases own threshold d transition with ⟨-, -, e⟩ | ⟨-, -, e⟩ | ⟨-, -, e⟩ | ⟨-, -, e⟩ <;>
    rw [e]

theorem State.insideMark_same (s : State) (o : CellObs) : SameMessages s (s.insideMark o) := by
  refine ⟨⟨rfl, id, id, rfl⟩, rfl, ?_⟩
  unfold State.insideMark
  dsimp only [State.setLc_lc]
  split
  · exact Lc.measureSilence_nextCell _ _ _ _ _
  · rfl

theorem State.beginCell_same (s : State) (o : CellObs) : SameMessages s (s.beginCell o) := by
  refine ⟨⟨rfl, id, id, rfl⟩, rfl, ?_⟩
  unfold State.beginCell
  dsimp only [State.setLc_lc, State.setOu_lc]
  split
  · exact Lc.measureSilence_nextCell _ _ _ _ _
  · rfl

theorem State.faultCell_same (s : State) (o : CellObs) : SameMessages s (s.faultCell o) := by
  unfold State.faultCell
  dsimp only
  split <;> exact ⟨⟨rfl, id, id, rfl⟩, rfl, rfl⟩

theorem execCellStart_keeps_messages {s t : State} (h : MessagesOk s) (o : CellObs) (e : execCellStart o s = .next t) :
    MessagesOk t := by
  have hcell : MessagesOk (if (o.transition && s.inMark) = true then s.insideMark o
      else ((if s.disturbedBy o then (Work.start s).disturb else Work.start s).on (State.beginCell o)).finish []) := by
    split
    · exact h.of_same (s.insideMark_same o)
    · refine Work.finish_keeps_messages [] (MessagesOk.of_same ?_ (State.beginCell_same _ o))
      split
      · exact h.of_same (Work.start s).disturb_same
      · exact h
  obtain rfl := Host.Outcome.next.inj e
  split
  · exact hcell
  · exact hcell
  · exact hcell
  · exact h.of_same (s.faultCell_same o)
  · exact h
  · exact h
  · exact h

theorem execStuckPull_keeps_messages {s t : State} (h : MessagesOk s) (o : PullObs) (order : OfferOrder)
    (e : execStuckPull o order s = .next t) : MessagesOk t := by
  obtain rfl := Host.Outcome.next.inj e
  dsimp only
  split <;> [skip; exact h]
  have hseen (lc : Lc) (hn : lc.nextCell = s.lc.nextCell) : MessagesOk (s.setLc lc) :=
    h.of_same ⟨⟨rfl, id, id, rfl⟩, rfl, hn⟩
  split
  · exact hseen _ rfl
  · refine Work.finish_keeps_messages order (MessagesOk.of_gaveUp ?_ (Work.enterLineFault_gaveUp (.start _) _))
    exact hseen _ rfl

@[simp] theorem Mu.forgetOthers_station (mu : Mu) (own : Fin 32) : (mu.forgetOthers own).station = mu.station := by
  rw [Mu.forgetOthers]

theorem execLineClear_keeps_messages {s t : State} (h : MessagesOk s) (e : execLineClear s = .next t) :
    MessagesOk t := by
  obtain rfl := Host.Outcome.next.inj e
  split <;> [skip; exact h]
  have hemptied : MessagesOk ((s.setMu (s.mu.forgetOthers s.number)).setZe { s.ze with failsafe := 0 }) :=
    h.of_same ⟨⟨rfl, fun hr => by simpa using hr, id, by simp⟩, rfl, rfl⟩
  exact Work.finish_keeps_messages []
    (Work.enterListening_messagesOk (w := .start _) .lineClear hemptied.requests hemptied.keys)

/-! ### Marks, and the rows that do a part of one -/

theorem execMark_keeps_messages {s : State} (h : MessagesOk s) (c : Prop) [Decidable c] (k : MarkKind) (m : MarkObs) :
    MessagesOk (if c then takeMark k m s else s) := by
  split
  · exact takeMark_keeps_messages k m h
  · exact h

theorem State.stageOne_same (s : State) (z : Fin 16) (f : ZoneRecord → ZoneRecord × Option ZoneCause) :
    SameMessages s (s.stageOne z f) := ⟨⟨rfl, id, id, rfl⟩, rfl, rfl⟩

theorem execStage_keeps_messages {s : State} (h : MessagesOk s) (c : Prop) [Decidable c] (z : Fin 16)
    (f : ZoneRecord → ZoneRecord × Option ZoneCause) : MessagesOk (if c then s.stageOne z f else s) := by
  split
  · exact h.of_same (s.stageOne_same z f)
  · exact h

theorem execFailsafe_keeps_messages {s t : State} (h : MessagesOk s) (e : execFailsafe s = .next t) : MessagesOk t := by
  obtain rfl := Host.Outcome.next.inj e
  split
  · exact h.of_same ⟨⟨rfl, id, id, rfl⟩, rfl, rfl⟩
  · exact h

theorem execStale_keeps_messages {s t : State} (h : MessagesOk s) (i : Nat) (e : execStale i s = .next t) :
    MessagesOk t := by
  obtain rfl := Host.Outcome.next.inj e
  split
  · exact h.of_same ⟨⟨rfl, id, fun hq => hq.sweepOne _ i, rfl⟩, rfl, rfl⟩
  · exact h

/-- Work at the claim queue and the key unit alone keeps the messages when it keeps the requests. -/
theorem SameBut.sameMessages {s t : State} (h : SameBut s t)
    (hq : RequestsOk s.cq.entries → RequestsOk t.cq.entries) : SameMessages s t := by
  obtain ⟨hlc, hmu, hmsu, -, -, -, -, -, hcl, -⟩ := h
  exact ⟨⟨by rw [hmsu], fun hr => by rw [State.station, hmu]; exact hr, hq, by rw [State.conf, State.conf, hcl]⟩,
    by rw [hmsu], by rw [hlc]⟩

theorem execHold_keeps_messages {s : State} (h : MessagesOk s) (c : Prop) [Decidable c] (k : Fin 4) :
    MessagesOk (if c then s.holdKey k else s) := by
  split <;> [skip; exact h]
  refine Work.finish_keeps_messages [] (MessagesOk.of_same ?_ ((Work.keyOffer_same _ k _).1.sameMessages fun hq =>
    Work.keyOffer_requests hq k (h.keys k) fun r e => (h.keys k).hold e))
  exact h.of_same ⟨⟨rfl, id, id, rfl⟩, rfl, rfl⟩

theorem State.reach_same (s : State) (p : Nat) : SameMessages s (s.reach p) := by
  unfold State.reach
  split
  · exact ⟨⟨rfl, id, id, rfl⟩, rfl, rfl⟩
  · exact .refl s

theorem execOutputPeriodStart_keeps_messages {s t : State} (h : MessagesOk s) (ch : Fin 4) (n : Nat)
    (e : execOutputPeriodStart ch n s = .next t) : MessagesOk t := by
  obtain rfl := Host.Outcome.next.inj e
  split
  · exact h.of_same (s.reach_same _)
  · exact h

theorem execPulseEdge_keeps_messages {s t : State} (h : MessagesOk s) (ch : Fin 4) (pos : Nat)
    (e : execPulseEdge ch pos s = .next t) : MessagesOk t := by
  obtain rfl := Host.Outcome.next.inj e
  split
  · split
    · exact h.of_same (s.reach_same _)
    · exact h
  · exact h

/-! ### Every command -/

/-- What the reading of each cell keeps, the readings of a field keep. -/
theorem foldl_keeps_messages {f : State → Reading → State} (hf : ∀ u, MessagesOk u → ∀ r, MessagesOk (f u r))
    (cells : List Reading) {s : State} (h : MessagesOk s) : MessagesOk (cells.foldl f s) :=
  List.foldlRecOn cells f h fun u hu r _ => hf u hu r

theorem exec_keeps_messages {s t : State} (h : MessagesOk s) (hz : ZonesOk s) (c : Instr) (e : exec c s = .next t) :
    MessagesOk t := by
  cases c with
  | coldReset =>
    obtain rfl := Host.Outcome.next.inj e
    exact State.reset_messagesOk s.pending
  | resetEnd => exact execResetEnd_keeps_messages h e
  | memoryReadEnd block => exact execMemoryReadEnd_keeps_messages h block e
  | byteReceived data stop => exact execByteReceived_keeps_messages h data stop e
  | frameGapTimeout => exact execFrameGapTimeout_keeps_messages h e
  | configure tag body | send tag body | queryStation tag body | queryZone tag body | queryMembers tag body
  | queryScene tag body | subscribe tag body | restart tag body =>
    obtain rfl := Host.Outcome.next.inj e
    exact State.takeRequest_keeps_messages h _ tag body
  | frameTransmitted => exact execFrameTransmitted_keeps_messages h e
  | cellStart o => exact execCellStart_keeps_messages h o e
  | frameTimerExpiry m | frameMark m | localFrameMark m | founding m =>
    obtain rfl := Host.Outcome.next.inj e
    exact execMark_keeps_messages h _ _ m
  | fadeEnd z | holdExpiry z | aged z =>
    obtain rfl := Host.Outcome.next.inj e
    exact execStage_keeps_messages h _ z _
  | failsafe => exact execFailsafe_keeps_messages h e
  | stale i => exact execStale_keeps_messages h i e
  | longPress k | repeatDue k =>
    obtain rfl := Host.Outcome.next.inj e
    exact execHold_keeps_messages h _ k
  | countField cells order =>
    obtain rfl := Host.Outcome.next.inj e
    exact foldl_keeps_messages (fun u hu r => countCell_keeps_messages order hu r) cells h
  | presenceCell r order => exact execPresenceCell_keeps_messages h r order e
  | claimField cells order => exact execClaimField_keeps_messages h hz cells order e
  | message cells faultFirst order =>
    obtain rfl := Host.Outcome.next.inj e
    exact foldl_keeps_messages (fun u hu r => messageCell_keeps_messages faultFirst order hu r) cells h
  | vetoCell r faultFirst order => exact execVetoCell_keeps_messages h r faultFirst order e
  | stuckPull o order => exact execStuckPull_keeps_messages h o order e
  | lineClear => exact execLineClear_keeps_messages h e
  | outputPeriodStart ch n => exact execOutputPeriodStart_keeps_messages h ch n e
  | pulseEdge ch pos => exact execPulseEdge_keeps_messages h ch pos e

/-- Settles O59, command by command: each keeps the frame record in agreement with the cell read next, so that what the
veto cell settles is well formed. -/
theorem stepsKeepMessagesWellFormed : Obligations.StepsKeepMessagesWellFormed := by
  intro s t hz h e
  unfold step at e
  split at e
  · obtain rfl := Host.Outcome.next.inj e
    exact h
  · next c rest _ =>
    have hp : SameMessages s (s.setPending rest) := ⟨⟨rfl, id, id, rfl⟩, rfl, rfl⟩
    exact exec_keeps_messages (h.of_same hp) (hz.congr rfl rfl rfl) c e

end Sys2Proof.Machine

/-! STALE and the sweep of a mark: QUEUED entries at the limit are removed, each with its count or its OUTCOME (R88,
R91, R94, R96 to R98). -/

namespace Sys2Proof.Machine

/-! ### The counts of removed entries (R98) -/

/-- A KEY request raises the stale count of its own index and no other count. -/
theorem Cq.count_stale (q : Cq) (src : Source) (k : Fin 4) :
    (q.count src .stale).counts[k] =
      if src = .key k then { q.counts[k] with stale := min 255 (q.counts[k].stale + 1) } else q.counts[k] := by
  cases src with
  | companion tag => rfl
  | key i =>
    by_cases h : i = k
    · subst h
      simp [Cq.count, KeyCounts.raise, bump8, Config.maxByte]
    · have hv : i.val ≠ k.val := fun e => h (Fin.ext e)
      simp [Cq.count, h, hv]

/-- The stale count rises once for every removed entry of its index, up to 255; the other counts stay. -/
theorem foldl_count_stale (l : List Entry) (k : Fin 4) (q : Cq) (h : q.counts[k].stale ≤ 255) :
    (l.foldl (fun q e => q.count e.source .stale) q).counts[k] =
      { q.counts[k] with
        stale := min 255 (q.counts[k].stale + (l.filter fun e => e.source == .key k).length) } := by
  induction l generalizing q with
  | nil =>
    show q.counts[k] = { q.counts[k] with stale := min 255 (q.counts[k].stale) }
    rw [Nat.min_eq_right h]
  | cons e l ih =>
    have hq := q.count_stale e.source k
    by_cases hk : e.source = .key k
    · rw [if_pos hk] at hq
      rw [List.foldl_cons, ih _ (by rw [hq]; exact Nat.min_le_left _ _), hq]
      simp [hk]
      omega
    · rw [if_neg hk] at hq
      rw [List.foldl_cons, ih _ (by rw [hq]; exact h), hq]
      simp [hk]

/-- The OUTCOMEs of some entries, in list order: those of the companion's. -/
theorem flatMap_outcomeReport (l : List Entry) (o : QueueOutcome) :
    (l.flatMap fun e => outcomeReport e.source o) =
      l.filterMap fun e => match e.source with
        | .companion tag => some (.outcome tag o)
        | .key _ => none := by
  induction l with
  | nil => rfl
  | cons e l ih =>
    rw [List.flatMap_cons, List.filterMap_cons, ih]
    cases e.source <;> rfl

/-- The sweep's reports and counts, besides its entries. -/
theorem Cq.sweep_reports (q : Cq) (limit : Nat) :
    (q.sweep limit).2 = ((q.entries.map Entry.older).filter (Entry.isStale limit)).flatMap
      fun e => outcomeReport e.source .stale := rfl

theorem Cq.sweep_counts (q : Cq) (limit : Nat) (k : Fin 4) (h : q.counts[k].stale ≤ 255) :
    (q.sweep limit).1.counts[k] = { q.counts[k] with
      stale := min 255 (q.counts[k].stale +
        (((q.entries.map Entry.older).filter (Entry.isStale limit)).filter fun e => e.source == .key k).length) } :=
  foldl_count_stale _ k _ h

/-! ### STALE (R96) -/

/-- The row does its part of the sweep at the entry at place `i`: a stale entry is removed with its count and
OUTCOME. -/
theorem execStale_eq {s : State} (hs : s.station.running = true) (i : Nat) :
    exec (.stale i) s = .next ((s.setCq (s.cq.sweepOne s.conf.staleness i).1).setCp
      (s.cp.offerAll (s.cq.sweepOne s.conf.staleness i).2)) := by
  show execStale i s = _
  unfold execStale
  rw [if_pos hs]
  dsimp only
  rw [Work.finish_eq]
  congr 2
  simp [Work.outcomes, interleave, Work.start, Offers.lists, Work.on]

/-- An entry IN FLIGHT or below the limit stays, and nothing is reported. -/
theorem Cq.sweepOne_stays {q : Cq} {i : Nat} {e : Entry} (he : q.entries[i]? = some e) {limit : Nat}
    (h : e.inFlight = true ∨ min 255 (e.age + 1) < limit) : q.sweepOne limit i = (q, []) := by
  have hs : e.older.isStale limit = false := by
    rw [Entry.isStale, Bool.and_eq_false_iff]
    exact h.imp (fun hf => by simp [Entry.older, hf]) fun hlt => decide_eq_false (Nat.not_le_of_lt hlt)
  simp [Cq.sweepOne, he, hs]

/-- A QUEUED entry at the limit is removed, counted and reported. -/
theorem Cq.sweepOne_removes {q : Cq} {i : Nat} {e : Entry} (he : q.entries[i]? = some e) {limit : Nat}
    (hq : e.inFlight = false) (h : limit ≤ min 255 (e.age + 1)) :
    q.sweepOne limit i =
      ({ q with entries := q.entries.eraseIdx i }.count e.source .stale, outcomeReport e.source .stale) := by
  have hs : e.older.isStale limit = true := by
    simpa [Entry.isStale, Entry.older, bump8, Config.maxByte, hq] using h
  simp [Cq.sweepOne, he, hs]

/-! ### The claim queue's tasks of a mark, in their order -/

theorem afterFrame_eq (s : State) (q : Cq) : afterFrame s q = if s.inFrame .queue then q.land else q := by
  simp only [afterFrame, State.inFrame_iff, Option.map_eq_some_iff]
  rfl

/-- What a task of a mark makes of the claim queue, with its OUTCOMEs: the return of the cut entry, the sweep, or the
offer that a key makes at the mark. -/
def queueStep (m : MarkObs) (s : State) (x : Cq × List Report) : QueueTask → Cq × List Report
  | .frameEnd => (afterFrame s x.1, x.2)
  | .sweep => ((x.1.sweep s.conf.staleness).1, x.2 ++ (x.1.sweep s.conf.staleness).2)
  | .key k =>
    match offerAtMark m s k with
    | none => x
    | some r =>
      ((x.1.take (.key k) s.conf.keys[k].prio r).cq, x.2 ++ (x.1.take (.key k) s.conf.keys[k].prio r).reports)

/-- A task does its step, in a happening that has the settings of the mark's start and the channel that it samples. -/
theorem Work.queueTask_eq (m : MarkObs) {s : State} {w : Work} (hcl : w.s.cl = s.cl) (t : QueueTask)
    (hku : ∀ k, t = .key k → w.s.ku.channels[k] = s.ku.channels[k]) :
    ((w.queueTask m (s.inFrame .queue) t).s.cq, (w.queueTask m (s.inFrame .queue) t).out.outcome) =
      queueStep m s (w.s.cq, w.out.outcome) t := by
  have hconf : w.s.conf = s.conf := by rw [State.conf, State.conf, hcl]
  cases t with
  | frameEnd =>
    simp only [queueStep, afterFrame_eq]
    cases s.inFrame .queue <;> rfl
  | sweep =>
    rw [queueStep, ← hconf]
    rfl
  | key k =>
    have hoffer : (w.s.ku.channels[k].atMark w.s.conf.keys[k] w.s.conf.longPress (m.keys.getLsbD k)).2 =
        offerAtMark m s k := by rw [hku k rfl, hconf]; rfl
    unfold Work.queueTask Work.keyAtMark queueStep
    dsimp only
    rw [hoffer, ← hconf]
    cases offerAtMark m s k <;> rfl

/-- A task leaves the settings, and the key channels of other tasks, as they were. -/
theorem Work.queueTask_frame (m : MarkObs) (ended : Bool) (w : Work) (t : QueueTask) :
    (w.queueTask m ended t).s.cl = w.s.cl ∧
      ∀ k, t ≠ .key k → (w.queueTask m ended t).s.ku.channels[k] = w.s.ku.channels[k] := by
  obtain ⟨-, -, -, -, -, -, -, -, hcl, -⟩ := w.queueTask_same m ended t
  refine ⟨hcl, fun k hk => ?_⟩
  cases t with
  | frameEnd => cases ended <;> rfl
  | sweep => rfl
  | key j =>
    have hv : j.val ≠ k.val := fun e => hk (congrArg _ (Fin.ext e))
    unfold Work.queueTask Work.keyAtMark
    rw [(Work.keyOffer_same _ j _).2]
    simp [hv]

/-- Tasks that come once each do their steps in order. -/
theorem queueTasks_eq (m : MarkObs) (s : State) (l : List QueueTask) {w : Work} (hl : l.Nodup) (hcl : w.s.cl = s.cl)
    (hku : ∀ k, .key k ∈ l → w.s.ku.channels[k] = s.ku.channels[k]) :
    ((l.foldl (Work.queueTask m (s.inFrame .queue)) w).s.cq,
      (l.foldl (Work.queueTask m (s.inFrame .queue)) w).out.outcome) =
      l.foldl (queueStep m s) (w.s.cq, w.out.outcome) := by
  induction l generalizing w with
  | nil => rfl
  | cons t l ih =>
    obtain ⟨ht, hl⟩ := List.nodup_cons.1 hl
    obtain ⟨hcl', hku'⟩ := w.queueTask_frame m (s.inFrame .queue) t
    rw [List.foldl_cons, List.foldl_cons, ← Work.queueTask_eq m hcl t fun k e => hku k (e ▸ List.mem_cons_self)]
    refine ih hl (hcl'.trans hcl) fun k hk => ?_
    rw [hku' k fun e => ht (e ▸ hk)]
    exact hku k (List.mem_cons_of_mem t hk)

/-- Key channels that offer nothing leave the queue as it was. -/
theorem queueSteps_idle {m : MarkObs} {s : State} (l : List QueueTask)
    (h : ∀ t ∈ l, ∃ k, t = .key k ∧ offerAtMark m s k = none) (x : Cq × List Report) :
    l.foldl (queueStep m s) x = x := by
  induction l with
  | nil => rfl
  | cons t l ih =>
    obtain ⟨k, rfl, hk⟩ := h t List.mem_cons_self
    have hx : queueStep m s x (.key k) = x := by simp [queueStep, hk]
    rw [List.foldl_cons, hx]
    exact ih fun u hu => h u (List.mem_cons_of_mem _ hu)

/-! ### Complete orders -/

/-- A complete order names the six tasks, each once (R94, R164, R167). -/
theorem completeOrder_perm {l : List QueueTask} (h : QueueTask.completeOrder l = true) :
    List.Perm [.frameEnd, .sweep, .key 0, .key 1, .key 2, .key 3] l := by
  simp only [QueueTask.completeOrder, Bool.and_eq_true, beq_iff_eq, List.contains_iff_mem] at h
  obtain ⟨⟨⟨⟨⟨⟨⟨hlen, h1⟩, h2⟩, h3⟩, h4⟩, h5⟩, h6⟩, -⟩ := h
  refine (List.subperm_of_subset (by decide) fun t ht => ?_).perm_of_length_le (by simp [hlen])
  simp only [List.mem_cons, List.not_mem_nil, or_false] at ht
  rcases ht with rfl | rfl | rfl | rfl | rfl | rfl <;> assumption

theorem completeOrder_nodup {l : List QueueTask} (h : QueueTask.completeOrder l = true) : l.Nodup :=
  (completeOrder_perm h).nodup_iff.1 (by decide)

/-- A complete order has key channels alone before, between and after the frame's end and the sweep. -/
theorem completeOrder_split {l : List QueueTask} (h : QueueTask.completeOrder l = true) :
    ∃ a b c : List QueueTask, l = a ++ .frameEnd :: (b ++ .sweep :: c) ∧ ∀ t ∈ a ++ (b ++ c), ∃ k, t = .key k := by
  have hn := completeOrder_nodup h
  have hlt : l.idxOf .frameEnd < l.idxOf .sweep := by
    simp only [QueueTask.completeOrder, Bool.and_eq_true, decide_eq_true_eq] at h
    exact h.2
  obtain ⟨p, c, rfl⟩ := List.append_of_mem ((completeOrder_perm h).subset (by simp : QueueTask.sweep ∈ _))
  have hend : .frameEnd ∈ p := by
    by_contra hp
    have hs : .sweep ∉ p := fun hs => (List.nodup_append.1 hn).2.2 _ hs _ List.mem_cons_self rfl
    rw [List.idxOf_append_of_notMem hp, List.idxOf_append_of_notMem hs] at hlt
    simp at hlt
  obtain ⟨a, b, rfl⟩ := List.append_of_mem hend
  have hperm : ((a ++ .frameEnd :: b) ++ .sweep :: c).Perm (.sweep :: .frameEnd :: (a ++ (b ++ c))) :=
    List.perm_middle.trans (.cons _ (by rw [List.append_assoc, List.cons_append]; exact List.perm_middle))
  obtain ⟨hsweep, hrest⟩ := List.nodup_cons.1 (hperm.nodup_iff.1 hn)
  refine ⟨a, b, c, by simp, fun t ht => ?_⟩
  cases t with
  | key k => exact ⟨k, rfl⟩
  | frameEnd => exact absurd ht (List.nodup_cons.1 hrest).1
  | sweep => exact absurd (List.mem_cons_of_mem _ ht) hsweep

/-! ### A mark -/

theorem State.founds_iff (s : State) : s.founds = true ↔ founding s := by
  rw [State.founds, Bool.and_eq_true, beq_iff_eq, decide_eq_true_eq]
  rfl

/-- A command that takes a mark does the work of a mark of some kind (R12). -/
theorem takesMark_exec {i : Instr} {m : MarkObs} {s : State} (h : takesMark i m s) :
    ∃ k, exec i s = .next (takeMark k m s) := by
  rcases h with (⟨rfl, ht⟩ | ⟨rfl, hr, hmark, hf⟩) | ⟨rfl, hl⟩ | ⟨rfl, hf⟩
  · exact ⟨.issued, congrArg _ (if_pos ht)⟩
  · refine ⟨s.recognisedKind, congrArg _ (if_pos ⟨hr, hmark, ?_⟩)⟩
    rwa [← Bool.not_eq_true, s.founds_iff]
  · exact ⟨.local_, congrArg _ (if_pos hl)⟩
  · exact ⟨.founding, congrArg _ (if_pos (s.founds_iff.2 hf))⟩

/-- A mark does the claim queue's tasks in the operand's order, and offers their OUTCOMEs with its other reports. -/
theorem takesMark_queue {i : Instr} {m : MarkObs} {s : State} (h : takesMark i m s) (hm : m.wellFormed = true) :
    ∃ (t : State) (o : Offers), exec i s = .next t ∧
      (t.cq, o.outcome) = m.queueOrder.foldl (queueStep m s) (s.cq, []) ∧
      t.cp = s.cp.offerAll (interleave m.offers o.lists) := by
  obtain ⟨k, hk⟩ := takesMark_exec h
  have hbefore := beforeQueue_leavesQueue k m s
  have hsteps := queueTasks_eq m s m.queueOrder (w := beforeQueue k m s) (completeOrder_nodup hm) hbefore.cl
    fun j _ => by rw [hbefore.ku]; rfl
  have hwork : queueWork k m s = m.queueOrder.foldl (Work.queueTask m (s.inFrame .queue)) (beforeQueue k m s) := by
    rw [queueWork, taskOrder_complete _ hm]
  rw [← hwork, hbefore.cq, hbefore.outcome] at hsteps
  refine ⟨_, ((queueWork k m s).commits ((handedOver k s).toList.map Settled.commit)).out, hk, hsteps, ?_⟩
  obtain ⟨-, -, -, -, -, -, -, hcp, -, -⟩ :=
    queueTasks_same m (s.inFrame .queue) (taskOrder m.queueOrder) (beforeQueue k m s)
  have hcp : (queueWork k m s).s.cp = s.cp := hcp.trans hbefore.cp
  rw [takeMark_eq, ← hcp]
  rfl

theorem afterFrame_counts (s : State) (q : Cq) : (afterFrame s q).counts = q.counts := by
  unfold afterFrame
  split <;> rfl

/-- A mark at which no key offers anything: the cut entry returns, then the sweep (R94, R96). -/
theorem queueSteps_without_offers {m : MarkObs} {s : State} (hm : m.wellFormed = true)
    (h : ∀ k : Fin 4, offerAtMark m s k = none) :
    m.queueOrder.foldl (queueStep m s) (s.cq, []) = (afterFrame s s.cq).sweep s.conf.staleness := by
  obtain ⟨a, b, c, horder, hkeys⟩ := completeOrder_split hm
  have hidle : ∀ l : List QueueTask, l ⊆ a ++ (b ++ c) → ∀ x, l.foldl (queueStep m s) x = x := fun l hl =>
    queueSteps_idle l fun t ht => by
      obtain ⟨k, rfl⟩ := hkeys t (hl ht)
      exact ⟨k, rfl, h k⟩
  rw [horder, List.foldl_append, hidle a (by simp), List.foldl_cons, List.foldl_append, hidle b (by simp),
    List.foldl_cons, hidle c (by simp)]
  rfl

/-- The tasks that follow the frame's end, the sweep and the one key that offers something are those of keys that offer
nothing. -/
theorem queueSteps_rest {m : MarkObs} {s : State} (hm : m.wellFormed = true) {k : Fin 4}
    (h : ∀ j : Fin 4, j ≠ k → offerAtMark m s j = none) {ahead rest : List QueueTask}
    (hahead : ahead.Perm [.frameEnd, .sweep, .key k]) (horder : m.queueOrder = ahead ++ rest) :
    m.queueOrder.foldl (queueStep m s) (s.cq, []) = ahead.foldl (queueStep m s) (s.cq, []) := by
  have hn : (ahead ++ rest).Nodup := horder ▸ completeOrder_nodup hm
  have hfresh : ∀ t ∈ rest, t ∉ ([.frameEnd, .sweep, .key k] : List QueueTask) := fun t ht hf =>
    (List.nodup_append.1 hn).2.2 t (hahead.mem_iff.2 hf) t ht rfl
  rw [horder, List.foldl_append]
  refine queueSteps_idle rest (fun t ht => ?_) _
  have hne := hfresh t ht
  cases t with
  | frameEnd => simp at hne
  | sweep => simp at hne
  | key j => exact ⟨j, rfl, h j (by rintro rfl; simp at hne)⟩

/-- Settles O38: STALE by its one step of the sweep, and a mark by its claim queue's tasks in the operand's order. -/
theorem staleEntriesAreRemoved : Obligations.StaleEntriesAreRemoved := by
  refine ⟨fun i e s hrun he => ⟨fun hstay => ?_, fun hq hlimit => ?_⟩,
    fun i m s hmark hm hcounts => ⟨fun hnone => ?_, ?_⟩⟩
  · rw [execStale_eq hrun, Cq.sweepOne_stays he hstay]
    rfl
  · refine ⟨_, execStale_eq hrun i, ?_⟩
    rw [Cq.sweepOne_removes he hq hlimit]
    refine ⟨by simp, rfl, fun tag htag => ?_, fun k hk => ?_⟩
    · rw [htag]
      exact ⟨rfl, rfl⟩
    · have hcount := Cq.count_stale { s.cq with entries := s.cq.entries.eraseIdx i } e.source k
      rw [if_pos hk] at hcount
      refine ⟨by rw [hk]; rfl, ?_⟩
      simp only [State.setCp_cq, State.setCq_cq]
      rw [hcount]
      exact ⟨rfl, rfl, rfl, rfl⟩
  · obtain ⟨t, o, hexec, hqueue, hcp⟩ := takesMark_queue hmark hm
    rw [queueSteps_without_offers hm hnone] at hqueue
    have hcq : t.cq = ((afterFrame s s.cq).sweep s.conf.staleness).1 := congrArg Prod.fst hqueue
    have hout : o.outcome = ((afterFrame s s.cq).sweep s.conf.staleness).2 := congrArg Prod.snd hqueue
    refine ⟨t, o, hexec, ?_, fun k => ?_, hcp, ?_⟩
    · rw [hcq]
      exact Cq.sweep_entries _ _
    · obtain ⟨-, -, hstale, -⟩ := hcounts.keys k
      have hsweep := (afterFrame s s.cq).sweep_counts s.conf.staleness k (by rwa [afterFrame_counts])
      rw [afterFrame_counts] at hsweep
      rw [hcq, hsweep]
      exact ⟨rfl, rfl, rfl, rfl⟩
    · rw [hout, Cq.sweep_reports, flatMap_outcomeReport]
      rfl
  · intro k req rest hoffer hothers
    obtain ⟨t, o, hexec, hqueue, -⟩ := takesMark_queue hmark hm
    have hstep {ahead : List QueueTask} (hahead : ahead.Perm [.frameEnd, .sweep, .key k])
        (horder : m.queueOrder = ahead ++ rest) : t.cq = (ahead.foldl (queueStep m s) (s.cq, [])).1 := by
      rw [← queueSteps_rest hm hothers hahead horder, ← hqueue]
    refine ⟨fun horder => ⟨t, hexec, ?_⟩, fun horder => ⟨t, hexec, ?_⟩, fun horder => ⟨t, hexec, ?_⟩⟩
    · rw [hstep (ahead := [.key k, .frameEnd, .sweep]) ((List.Perm.swap _ _ _).trans (.cons _ (.swap _ _ _))) horder]
      simp [queueStep, hoffer]
    · rw [hstep (ahead := [.frameEnd, .key k, .sweep]) (.cons _ (.swap _ _ _)) horder]
      simp [queueStep, hoffer]
    · rw [hstep (ahead := [.frameEnd, .sweep, .key k]) (.refl _) horder]
      simp [queueStep, hoffer]

end Sys2Proof.Machine

/-! What each operation of the claim queue keeps of its list: at most 8 entries in priority order, each of an admission
of its own, and at most one IN FLIGHT (R80 to R87, R89 to R96). -/

namespace Sys2Proof.Machine

/-! ### Sound lists -/

/-- Entry `x` stands for `e` in its place: of the same priority and admission, not launched, and with attempts in 0..3
(R80). -/
structure Entry.SamePlace (e x : Entry) : Prop where
  prio     : x.prio = e.prio
  order    : x.order = e.order
  flight   : x.inFlight = true → e.inFlight = true
  attempts : x.attempts ≤ 3

namespace QueueOk

/-- Removing entries keeps a sound list sound. -/
theorem sublist {q r : Cq} (h : QueueOk q) (he : r.entries.Sublist q.entries) (hn : r.nextOrder = q.nextOrder) :
    QueueOk r where
  size := he.length_le.trans h.size
  flight := (he.filter _).length_le.trans h.flight
  attempts e hm := h.attempts e (he.subset hm)
  order := h.order.sublist he
  distinct := h.distinct.sublist he
  fresh e hm := hn ▸ h.fresh e (he.subset hm)

/-- Changing the entries in their places keeps a sound list sound. -/
theorem map {q r : Cq} (h : QueueOk q) {f : Entry → Entry} (he : r.entries = q.entries.map f)
    (hn : r.nextOrder = q.nextOrder) (hf : ∀ e ∈ q.entries, e.SamePlace (f e)) : QueueOk r where
  size := by rw [he, List.length_map]; exact h.size
  flight := by
    rw [he, ← List.countP_eq_length_filter, List.countP_map]
    refine (List.countP_mono_left fun e he => (hf e he).flight).trans ?_
    rw [List.countP_eq_length_filter]
    exact h.flight
  attempts e hm := by
    rw [he] at hm
    obtain ⟨x, hx, rfl⟩ := List.mem_map.1 hm
    exact (hf x hx).attempts
  order := by
    rw [he, List.pairwise_map]
    refine h.order.imp_of_mem fun ha hb hab => ?_
    rwa [(hf _ ha).prio, (hf _ hb).prio]
  distinct := by
    rw [he, List.pairwise_map]
    refine h.distinct.imp_of_mem fun ha hb hab => ?_
    rwa [(hf _ ha).order, (hf _ hb).order]
  fresh e hm := by
    rw [he] at hm
    obtain ⟨x, hx, rfl⟩ := List.mem_map.1 hm
    rw [(hf x hx).order, hn]
    exact h.fresh x hx

theorem count {q : Cq} (h : QueueOk q) (src : Source) (k : KeyCount) : QueueOk (q.count src k) :=
  h.sublist (by rw [Cq.count_entries]) (Cq.count_nextOrder q src k)

/-- An admission, the newest of all, keeps a sound list sound while fewer than 8 entries stand (R81, R82). -/
theorem admission {q : Cq} (h : QueueOk q) (hlen : q.entries.length < 8) (src : Source) (prio : Nat) (req : Request) :
    QueueOk { q with
      entries := insertEntry ⟨src, prio, req, 0, 0, false, q.nextOrder⟩ q.entries, nextOrder := q.nextOrder + 1 } where
  size := by rw [insertEntry_length]; exact hlen
  flight := by rw [insertEntry_inFlight _ rfl]; exact h.flight
  attempts e hm := by
    rcases mem_insertEntry.1 hm with rfl | hm
    · exact Nat.zero_le 3
    · exact h.attempts e hm
  order := insertEntry_ordered _ h.order
  distinct := by
    rw [(insertEntry_perm _ _).pairwise_iff (fun hne => hne.symm), List.pairwise_cons]
    exact ⟨fun e hm => (h.fresh e hm).ne', h.distinct⟩
  fresh e hm := by
    rcases mem_insertEntry.1 hm with rfl | hm
    · exact Nat.lt_succ_self _
    · exact (h.fresh e hm).trans (Nat.lt_succ_self _)

theorem enrol {q : Cq} (h : QueueOk q) (src : Source) (prio : Nat) (req : Request) (out : List Report) :
    QueueOk (q.enrol src prio req out).cq := by
  rcases q.enrol_cases src prio req out with ⟨hlen, e⟩ | ⟨-, e⟩ <;> rw [e]
  · exact h.admission hlen src prio req
  · exact h.count src .dropped

/-- Two entries IN FLIGHT are one (R80). -/
theorem flight_unique {q : Cq} (h : QueueOk q) {a b : Entry} (ha : a ∈ q.entries) (hb : b ∈ q.entries)
    (hfa : a.inFlight = true) (hfb : b.inFlight = true) : a = b := by
  have ha := List.mem_filter.2 ⟨ha, hfa⟩
  have hb := List.mem_filter.2 ⟨hb, hfb⟩
  obtain ⟨x, hx⟩ := List.length_eq_one_iff.1 (le_antisymm h.flight (List.length_pos_of_mem ha))
  rw [hx, List.mem_singleton] at ha hb
  rw [ha, hb]

end QueueOk

/-! ### What an offer can do (R82 to R87) -/

theorem Cq.take_step (q : Cq) (src : Source) (prio : Nat) (z : Fin 16) (d : Int) :
    q.take src prio (.step z d) =
      match latestQueued (Request.isStepOn z) q.entries with
      | none => q.enrol src prio (.step z d) []
      | some old =>
        if foldSteps old.req.stepOf d = 0 then
          ⟨q.without old.order, true, outcomeReport old.source .cancelled ++ outcomeReport src .merged⟩
        else
          ⟨{ q with entries := q.entries.map fun e =>
              if e.waitsAs old.order then { e with req := .step z (foldSteps old.req.stepOf d) } else e },
            true, outcomeReport src .merged⟩ := rfl

theorem Cq.take_toggle (q : Cq) (src : Source) (prio : Nat) (z c : Fin 16) :
    q.take src prio (.toggle z c) =
      match latestQueued (Request.isToggleOn z) q.entries with
      | none => q.enrol src prio (.toggle z c) []
      | some old =>
        ⟨q.without old.order, true, outcomeReport old.source .cancelled ++ outcomeReport src .cancelled⟩ := rfl

theorem Cq.take_capture (q : Cq) (src : Source) (prio : Nat) (sc : Fin 16) :
    q.take src prio (.capture sc) = q.enrol src prio (.capture sc) [] := rfl

/-- The kinds of request that replace QUEUED ones: LEVEL, HALT, RECALL and OCCUPY (R86). -/
def Request.replacing : Request → Bool
  | .level .. | .halt .. | .recall .. | .occupy .. => true
  | .step .. | .toggle .. | .capture .. => false

/-- A replacing request removes what it replaces, and is then admitted (R82, R86). -/
theorem Cq.take_replacing (q : Cq) (src : Source) (prio : Nat) {req : Request} (h : req.replacing = true) :
    q.take src prio req =
      ({ q with entries := q.entries.filter fun e : Entry => !(!e.inFlight && req.replaces e.req) }).enrol src prio req
        ((q.entries.filter fun e : Entry => !e.inFlight && req.replaces e.req).flatMap fun e : Entry =>
          outcomeReport e.source .replaced) := by
  cases req <;> [rfl; cases h; cases h; rfl; rfl; cases h; rfl]

/-- An offer is admitted after QUEUED entries have gone, removes a QUEUED entry, or is folded into one. -/
theorem Cq.take_cases (q : Cq) (src : Source) (prio : Nat) (req : Request) :
    (∃ gone : Entry → Bool, ∃ out : List Report, (∀ e, e.inFlight = true → gone e = false) ∧
      q.take src prio req = ({ q with entries := q.entries.filter fun e => !gone e }).enrol src prio req out) ∨
    (∃ order : Nat, (q.take src prio req).cq = q.without order) ∨
    (∃ (order : Nat) (r : Request), (q.take src prio req).cq =
      { q with entries := q.entries.map fun e => if e.waitsAs order then { e with req := r } else e }) := by
  have hall : ∃ gone : Entry → Bool, ∃ out : List Report, (∀ e, e.inFlight = true → gone e = false) ∧
      q.enrol src prio req [] = ({ q with entries := q.entries.filter fun e => !gone e }).enrol src prio req out :=
    ⟨fun _ => false, [], fun _ _ => rfl, by simp⟩
  have hreplacing (h : req.replacing = true) : ∃ gone : Entry → Bool, ∃ out : List Report,
      (∀ e, e.inFlight = true → gone e = false) ∧
      q.take src prio req = ({ q with entries := q.entries.filter fun e => !gone e }).enrol src prio req out :=
    ⟨_, _, fun e he => by simp [he], q.take_replacing src prio h⟩
  cases req with
  | step z d =>
    rw [Cq.take_step]
    split
    · exact .inl hall
    · split
      · exact .inr (.inl ⟨_, rfl⟩)
      · exact .inr (.inr ⟨_, _, rfl⟩)
  | toggle z c =>
    rw [Cq.take_toggle]
    split
    · exact .inl hall
    · exact .inr (.inl ⟨_, rfl⟩)
  | capture sc => exact .inl hall
  | _ => exact .inl (hreplacing rfl)

/-- An offer keeps a sound list sound. -/
theorem QueueOk.take {q : Cq} (h : QueueOk q) (src : Source) (prio : Nat) (req : Request) :
    QueueOk (q.take src prio req).cq := by
  rcases q.take_cases src prio req with ⟨gone, out, -, e⟩ | ⟨order, e⟩ | ⟨order, r, e⟩ <;> rw [e]
  · refine QueueOk.enrol ?_ src prio req out
    exact h.sublist List.filter_sublist rfl
  · exact h.sublist List.filter_sublist rfl
  · refine h.map rfl rfl fun x hx => ?_
    split
    · exact ⟨rfl, rfl, id, h.attempts x hx⟩
    · exact ⟨rfl, rfl, id, h.attempts x hx⟩

/-- Admission leaves the IN FLIGHT entries as they were. -/
theorem Cq.enrol_inFlight (q : Cq) (src : Source) (prio : Nat) (req : Request) (out : List Report) :
    (q.enrol src prio req out).cq.entries.filter Entry.inFlight = q.entries.filter Entry.inFlight := by
  rcases q.enrol_cases src prio req out with ⟨-, e⟩ | ⟨-, e⟩ <;> rw [e]
  · exact insertEntry_inFlight _ rfl _
  · rw [Cq.count_entries]

/-- Removing QUEUED entries leaves the IN FLIGHT ones as they were. -/
theorem filter_inFlight_of_keeps {l : List Entry} {keep : Entry → Bool} (h : ∀ e, e.inFlight = true → keep e = true) :
    (l.filter keep).filter Entry.inFlight = l.filter Entry.inFlight := by
  rw [List.filter_filter]
  refine List.filter_congr fun e _ => ?_
  cases he : e.inFlight
  · rfl
  · rw [h e he]; rfl

/-- Changing QUEUED entries, which stay QUEUED, leaves the IN FLIGHT ones as they were. -/
theorem filter_inFlight_map {l : List Entry} {f : Entry → Entry} (hf : ∀ e, (f e).inFlight = e.inFlight)
    (hid : ∀ e, e.inFlight = true → f e = e) : (l.map f).filter Entry.inFlight = l.filter Entry.inFlight := by
  have hcomp : Entry.inFlight ∘ f = Entry.inFlight := funext hf
  rw [List.filter_map, hcomp]
  exact (List.map_congr_left fun e he => hid e (List.mem_filter.1 he).2).trans (List.map_id _)

theorem Entry.waitsAs_of_inFlight {e : Entry} (h : e.inFlight = true) (order : Nat) : e.waitsAs order = false := by
  simp [Entry.waitsAs, h]

/-- An offer leaves the IN FLIGHT entries as they were. -/
theorem Cq.take_inFlight (q : Cq) (src : Source) (prio : Nat) (req : Request) :
    (q.take src prio req).cq.entries.filter Entry.inFlight = q.entries.filter Entry.inFlight := by
  rcases q.take_cases src prio req with ⟨gone, out, hgone, e⟩ | ⟨order, e⟩ | ⟨order, r, e⟩ <;> rw [e]
  · rw [Cq.enrol_inFlight]
    exact filter_inFlight_of_keeps fun e he => by rw [hgone e he]; rfl
  · exact filter_inFlight_of_keeps fun e he => by rw [Entry.waitsAs_of_inFlight he]; rfl
  · refine filter_inFlight_map (fun e => ?_) fun e he => if_neg ?_
    · split <;> rfl
    · rw [Entry.waitsAs_of_inFlight he]
      exact Bool.false_ne_true

/-! ### Admission in place -/

/-- The place of a new entry is the one R81 gives it. -/
theorem insertEntry_eq_placed (e : Entry) (l : List Entry) : insertEntry e l = placed e l := by
  induction l with
  | nil => rfl
  | cons x l ih =>
    rw [insertEntry]
    by_cases h : x.prio ≤ e.prio
    · simp [placed, h, ih]
    · simp [placed, h]

/-- Below 8 entries a request is admitted in its place. -/
theorem Cq.enrol_admits {q : Cq} (h : q.entries.length < 8) (src : Source) (prio : Nat) (req : Request)
    (out : List Report) :
    (q.enrol src prio req out).taken = true ∧ (q.enrol src prio req out).reports = out ∧
      (q.enrol src prio req out).cq.counts = q.counts ∧
      (q.enrol src prio req out).cq.entries = placed ⟨src, prio, req, 0, 0, false, q.nextOrder⟩ q.entries := by
  rcases q.enrol_cases src prio req out with ⟨-, e⟩ | ⟨hlen, -⟩
  · rw [e]
    exact ⟨rfl, rfl, rfl, insertEntry_eq_placed _ _⟩
  · omega

/-- The drop of a key's request is counted at its index. -/
theorem Cq.count_dropped (q : Cq) (k : Fin 4) :
    (q.count (.key k) .dropped).counts[k].dropped = min 255 (q.counts[k].dropped + 1) := by
  simp [Cq.count, KeyCounts.raise, bump8, Config.maxByte]

/-- At 8 entries a request is turned away, which a key counts as dropped. -/
theorem Cq.enrol_full {q : Cq} (h : q.entries.length = 8) (src : Source) (prio : Nat) (req : Request)
    (out : List Report) :
    (q.enrol src prio req out).taken = false ∧ (q.enrol src prio req out).reports = out ∧
      (q.enrol src prio req out).cq.entries = q.entries ∧
      (∀ tag, src = .companion tag → (q.enrol src prio req out).cq = q) ∧
      ∀ k : Fin 4, src = .key k →
        (q.enrol src prio req out).cq.counts[k].dropped = min 255 (q.counts[k].dropped + 1) := by
  rcases q.enrol_cases src prio req out with ⟨hlen, -⟩ | ⟨-, e⟩
  · omega
  · rw [e]
    refine ⟨rfl, rfl, Cq.count_entries q src _, fun tag htag => ?_, fun k hk => ?_⟩
    · rw [htag]
      rfl
    · rw [hk]
      exact q.count_dropped k

/-- Settles O40: an offer is an admission, a removal or a fold, each of which keeps the list sound; a CAPTURE is
admitted or turned away. -/
theorem offersKeepTheQueueSound : Obligations.OffersKeepTheQueueSound :=
  fun q src prio h =>
    ⟨fun req => ⟨h.take src prio req, q.take_inFlight src prio req⟩,
      fun _ hlen => q.take_capture src prio _ ▸ Cq.enrol_admits hlen src prio _ [],
      fun _ hlen => q.take_capture src prio _ ▸ Cq.enrol_full hlen src prio _ []⟩

end Sys2Proof.Machine

/-! The claim queue and the frame: what each shared operation and each cell of a field does to a sound queue and its IN
FLIGHT entry (R21, R80, R89 to R96). -/

namespace Sys2Proof.Machine

/-! ### The queue's operations and its IN FLIGHT entry -/

/-- No entry of the queue is IN FLIGHT. -/
def Cq.Idle (q : Cq) : Prop := ∀ e ∈ q.entries, e.inFlight = false

theorem Cq.idle_iff (q : Cq) : q.Idle ↔ q.entries.filter Entry.inFlight = [] := by
  simp [Cq.Idle, List.filter_eq_nil_iff]

theorem Cq.idle_of_nil {q : Cq} (h : q.entries = []) : q.Idle := q.idle_iff.2 (by rw [h]; rfl)

theorem Cq.idle_of_flying {q : Cq} (h : q.flying = none) : q.Idle := fun e he => by
  simpa using List.find?_eq_none.1 h e he

theorem Cq.mem_of_flying {q : Cq} {e : Entry} (h : q.flying = some e) : e ∈ q.entries ∧ e.inFlight = true :=
  ⟨List.mem_of_find?_eq_some h, List.find?_some h⟩

theorem Cq.land_idle (q : Cq) : q.land.Idle := by
  intro e he
  obtain ⟨x, -, rfl⟩ := List.mem_map.1 he
  rfl

theorem Cq.sent_idle (q : Cq) : q.sent.1.Idle := by
  rcases q.sent_cases with ⟨hf, e⟩ | ⟨_, -, e, -⟩
  · rw [e]
    exact Cq.idle_of_flying hf
  · intro x hx
    rw [e] at hx
    simpa using (List.mem_filter.1 hx).2

theorem Cq.void_idle (q : Cq) : q.void.1.Idle := by
  rcases q.void_cases with ⟨hf, e⟩ | ⟨_, -, -, e, -⟩ | ⟨_, -, -, -, -, e⟩
  · rw [e]
    exact Cq.idle_of_flying hf
  · intro x hx
    rw [e] at hx
    simpa using (List.mem_filter.1 hx).2
  · intro x hx
    rw [e] at hx
    obtain ⟨y, -, rfl⟩ := List.mem_map.1 hx
    cases hy : y.inFlight <;> simp [hy]

@[simp] theorem Cq.sent_nextOrder (q : Cq) : q.sent.1.nextOrder = q.nextOrder := by
  unfold Cq.sent
  split
  · rfl
  · exact Cq.count_nextOrder _ _ _

@[simp] theorem Cq.void_nextOrder (q : Cq) : q.void.1.nextOrder = q.nextOrder := by
  unfold Cq.void
  split
  · rfl
  · split
    · exact Cq.count_nextOrder _ _ _
    · rfl

/-- Counting removed entries admits none. -/
theorem foldl_count_nextOrder (l : List Entry) (k : KeyCount) (q : Cq) :
    (l.foldl (fun q e => q.count e.source k) q).nextOrder = q.nextOrder := by
  induction l generalizing q with
  | nil => rfl
  | cons e l ih => rw [List.foldl_cons, ih, Cq.count_nextOrder]

@[simp] theorem Cq.sweep_nextOrder (q : Cq) (limit : Nat) : (q.sweep limit).1.nextOrder = q.nextOrder :=
  foldl_count_nextOrder _ _ _

/-- The sweep of one entry removes it or leaves the queue as it was. -/
theorem Cq.sweepOne_sublist (q : Cq) (limit i : Nat) :
    (q.sweepOne limit i).1.entries.Sublist q.entries ∧ (q.sweepOne limit i).1.nextOrder = q.nextOrder := by
  unfold Cq.sweepOne
  split
  · exact ⟨.refl _, rfl⟩
  · split
    · exact ⟨by rw [Cq.count_entries]; exact List.eraseIdx_sublist _ _, Cq.count_nextOrder _ _ _⟩
    · exact ⟨.refl _, rfl⟩

theorem QueueOk.of_nil {q : Cq} (h : q.entries = []) : QueueOk q := by
  constructor <;> simp [h]

theorem QueueOk.land {q : Cq} (h : QueueOk q) : QueueOk q.land :=
  h.map rfl rfl fun e he => ⟨rfl, rfl, fun hf => (by cases hf), h.attempts e he⟩

/-- The head of a queue with no entry IN FLIGHT goes IN FLIGHT (R89). -/
theorem QueueOk.launch {q : Cq} (h : QueueOk q) (hi : q.Idle) : QueueOk q.launch := by
  unfold Cq.launch
  split
  · exact h
  · next x xs hx =>
    have hrest : xs.filter Entry.inFlight = [] := List.filter_eq_nil_iff.2 fun e he => by
      simp [hi e (hx ▸ List.mem_cons_of_mem x he)]
    exact {
      size := by simpa [hx] using h.size
      flight := by simp [hrest]
      attempts := by simpa [hx] using h.attempts
      order := by simpa [hx] using h.order
      distinct := by simpa [hx] using h.distinct
      fresh := by simpa [hx] using h.fresh }

theorem QueueOk.sent {q : Cq} (h : QueueOk q) : QueueOk q.sent.1 := by
  rcases q.sent_cases with ⟨-, e⟩ | ⟨_, -, e, -⟩
  · rwa [e]
  · exact h.sublist (e ▸ List.filter_sublist) q.sent_nextOrder

/-- VOID and ABANDONED leave attempts in 0..3: the entry of a fourth is removed (R93, R95). -/
theorem QueueOk.void {q : Cq} (h : QueueOk q) : QueueOk q.void.1 := by
  rcases q.void_cases with ⟨-, e⟩ | ⟨_, -, -, e, -⟩ | ⟨x, hx, hlt, -, -, e⟩
  · rwa [e]
  · exact h.sublist (e ▸ List.filter_sublist) q.void_nextOrder
  · obtain ⟨hmem, hfly⟩ := Cq.mem_of_flying hx
    refine h.map e q.void_nextOrder fun y hy => ?_
    split
    · next hf =>
      obtain rfl := h.flight_unique hy hmem hf hfly
      exact ⟨rfl, rfl, fun hn => (by cases hn), hlt⟩
    · exact ⟨rfl, rfl, id, h.attempts y hy⟩

theorem QueueOk.sweep {q : Cq} (h : QueueOk q) (limit : Nat) : QueueOk (q.sweep limit).1 := by
  have haged : QueueOk { q with entries := q.entries.map Entry.older } :=
    h.map rfl rfl fun e he => ⟨rfl, rfl, id, h.attempts e he⟩
  exact haged.sublist (q.sweep_entries limit ▸ List.filter_sublist) (q.sweep_nextOrder limit)

/-- From `q` to `r` a sound queue stays sound, and no entry goes IN FLIGHT where none was. -/
structure QueueKept (q r : Cq) : Prop where
  sound : QueueOk q → QueueOk r
  idle  : q.Idle → r.Idle

namespace QueueKept

theorem refl (q : Cq) : QueueKept q q := ⟨id, id⟩

theorem trans {p q r : Cq} (h : QueueKept p q) (k : QueueKept q r) : QueueKept p r :=
  ⟨k.sound ∘ h.sound, k.idle ∘ h.idle⟩

theorem take (q : Cq) (src : Source) (prio : Nat) (req : Request) : QueueKept q (q.take src prio req).cq :=
  ⟨fun h => h.take src prio req, fun hi => by rwa [Cq.idle_iff, Cq.take_inFlight, ← Cq.idle_iff]⟩

theorem land (q : Cq) : QueueKept q q.land := ⟨QueueOk.land, fun _ => q.land_idle⟩

theorem sent (q : Cq) : QueueKept q q.sent.1 := ⟨QueueOk.sent, fun _ => q.sent_idle⟩

theorem void (q : Cq) : QueueKept q q.void.1 := ⟨QueueOk.void, fun _ => q.void_idle⟩

theorem sweep (q : Cq) (limit : Nat) : QueueKept q (q.sweep limit).1 where
  sound h := h.sweep limit
  idle hi e he := by
    rw [Cq.sweep_entries] at he
    obtain ⟨x, hx, rfl⟩ := List.mem_map.1 (List.mem_of_mem_filter he)
    exact hi x hx

theorem sweepOne (q : Cq) (limit i : Nat) : QueueKept q (q.sweepOne limit i).1 where
  sound h := h.sublist (q.sweepOne_sublist limit i).1 (q.sweepOne_sublist limit i).2
  idle hi e he := hi e ((q.sweepOne_sublist limit i).1.subset he)

end QueueKept

/-! ### States that agree on the claim of the frame -/

theorem State.not_queueContends {s : State} (h : s.lc.contest = none) : ¬s.queueContends := by
  rintro ⟨c, hc, -⟩
  rw [h] at hc
  cases hc

theorem State.queueContends_iff {s : State} {c : Contest} (h : s.lc.contest = some c) :
    s.queueContends ↔ c.by_ = .queue := by
  rw [State.queueContends, h]
  simp

/-- From `s` to `t` the queue is kept, and its contest and message are as they were. -/
structure SameClaim (s t : State) : Prop where
  queue     : QueueKept s.cq t.cq
  contest   : t.lc.contest = s.lc.contest
  claimOpen : t.lc.claimOpen = s.lc.claimOpen
  reading   : s.station.reading = true → t.station.reading = true
  phase     : t.msu.frame.phase = s.msu.frame.phase
  role      : t.msu.frame.role = s.msu.frame.role
  presenter : t.msu.frame.presenter = s.msu.frame.presenter

/-- From `s` to `t` the station has gone to LINE FAULT, which leaves a sound queue with nothing IN FLIGHT. -/
structure Grounded (s t : State) : Prop where
  station : t.station = .lineFault
  flight  : FlightOk s → FlightOk t

namespace SameClaim

/-- A change that reaches neither the queue, nor LC's claim field, nor the station state, nor the frame record. -/
theorem of_eq {s t : State} (hq : QueueKept s.cq t.cq) (hcontest : t.lc.contest = s.lc.contest)
    (hopen : t.lc.claimOpen = s.lc.claimOpen) (hstation : t.station = s.station) (hframe : t.msu.frame = s.msu.frame) :
    SameClaim s t :=
  ⟨hq, hcontest, hopen, fun h => hstation ▸ h, by rw [hframe], by rw [hframe], by rw [hframe]⟩

theorem refl (s : State) : SameClaim s s := of_eq (.refl _) rfl rfl rfl rfl

theorem trans {s t u : State} (h : SameClaim s t) (k : SameClaim t u) : SameClaim s u :=
  ⟨h.queue.trans k.queue, k.contest.trans h.contest, k.claimOpen.trans h.claimOpen, k.reading ∘ h.reading,
    k.phase.trans h.phase, k.role.trans h.role, k.presenter.trans h.presenter⟩

theorem contends_iff {s t : State} (h : SameClaim s t) : t.queueContends ↔ s.queueContends := by
  rw [State.queueContends, State.queueContends, h.contest]

theorem sends_iff {s t : State} (h : SameClaim s t) : t.queueSends ↔ s.queueSends := by
  rw [State.queueSends, State.queueSends, h.phase, h.role, h.presenter]

end SameClaim

namespace FlightOk

/-- With no claim of the queue contending and no message of it on the line, nothing is IN FLIGHT. -/
theorem idle {s : State} (h : FlightOk s) (hc : ¬s.queueContends) (hs : ¬s.queueSends) : s.cq.Idle := fun e he => by
  by_contra hf
  exact (h.reason e he (by simpa using hf)).elim hc hs

/-- A sound queue with nothing IN FLIGHT but for a claim or a message of its own. -/
theorem of_idle_unless {t : State} (hq : QueueOk t.cq) (hi : ¬t.queueContends → ¬t.queueSends → t.cq.Idle)
    (hclosed : t.lc.claimOpen = false ∨ t.station.reading = false →
      t.lc.contest = none ∧ t.msu.frame.phase ≠ .message) : FlightOk t where
  queue := hq
  reason e he hf := by
    by_contra hno
    obtain ⟨hc, hs⟩ := not_or.1 hno
    rw [hi hc hs e he] at hf
    cases hf
  closed := hclosed

/-- A sound queue with nothing IN FLIGHT, and neither a contest nor a message. -/
theorem of_idle {t : State} (hq : QueueOk t.cq) (hi : t.cq.Idle) (hc : t.lc.contest = none)
    (hp : t.msu.frame.phase ≠ .message) : FlightOk t :=
  of_idle_unless hq (fun _ _ => hi) fun _ => ⟨hc, hp⟩

/-- What is closed in `t` was closed before, in a state with the same claim field and a station that read no more. -/
theorem closed_before {s t : State} (h : FlightOk s) (hopen : t.lc.claimOpen = s.lc.claimOpen)
    (hreading : s.station.reading = true → t.station.reading = true)
    (hclosed : t.lc.claimOpen = false ∨ t.station.reading = false) :
    s.lc.contest = none ∧ s.msu.frame.phase ≠ .message :=
  h.closed (hclosed.imp (hopen ▸ ·) fun ht => Bool.eq_false_iff.2 fun hs => Bool.eq_false_iff.1 ht (hreading hs))

theorem of_same {s t : State} (h : FlightOk s) (a : SameClaim s t) : FlightOk t :=
  of_idle_unless (a.queue.sound h.queue)
    (fun hc hs => a.queue.idle (h.idle (a.contends_iff.not.1 hc) (a.sends_iff.not.1 hs)))
    fun hclosed => by
      rw [a.contest, a.phase]
      exact h.closed_before a.claimOpen a.reading hclosed

/-- A contest that ends takes its entry out of flight (R91). -/
theorem endContest {s : State} (h : FlightOk s) : FlightOk s.endContest := by
  have hclosed (hopen : s.lc.claimOpen = false ∨ s.station.reading = false) :
      (none : Option Contest) = none ∧ s.msu.frame.phase ≠ .message := ⟨rfl, (h.closed hopen).2⟩
  rcases s.endContest_cases with ⟨-, e⟩ | ⟨_, -, -, e⟩ | ⟨c, hc, hby, e⟩ <;> rw [e]
  · exact h
  · exact of_idle_unless h.queue.land (fun _ _ => s.cq.land_idle) hclosed
  · refine of_idle_unless h.queue (fun _ hs => h.idle ?_ hs) hclosed
    rw [State.queueContends_iff hc, hby]
    decide

end FlightOk

theorem SameClaim.grounded {s t u : State} (h : SameClaim s t) (g : Grounded t u) : Grounded s u :=
  ⟨g.station, fun hs => g.flight (hs.of_same h)⟩

/-! ### The shared operations -/

theorem State.setMu_sameClaim (s : State) {mu : Mu} (h : mu.station = s.mu.station) : SameClaim s (s.setMu mu) :=
  .of_eq (.refl _) rfl rfl h rfl

theorem State.setZe_sameClaim (s : State) (ze : Ze) : SameClaim s (s.setZe ze) := .of_eq (.refl _) rfl rfl rfl rfl

theorem Work.finish_sameClaim (order : OfferOrder) (w : Work) : SameClaim w.s (w.finish order) :=
  .of_eq (.refl _) rfl rfl rfl rfl

theorem Work.finish_keeps_flight (order : OfferOrder) {w : Work} (h : FlightOk w.s) : FlightOk (w.finish order) :=
  h.of_same (w.finish_sameClaim order)

theorem Work.voided_kept (w : Work) (p : Option Presenter) : QueueKept w.s.cq (w.voided p).s.cq := by
  rw [Work.voided_s]
  split
  · exact .refl _
  · exact .refl _
  · exact .void _

theorem Work.raise_sameClaim (w : Work) (n : Nat) : SameClaim w.s (w.raise n).s := by
  rw [Work.raise_s]
  split
  · split
    · exact ⟨.refl _, rfl, rfl, fun _ => rfl, rfl, rfl, rfl⟩
    · exact .of_eq (.refl _) rfl rfl rfl rfl
  · exact .refl w.s

theorem Work.disturb_sameClaim (w : Work) : SameClaim w.s w.disturb.s := by
  rw [Work.disturb_s]
  exact .of_eq (.refl _) rfl rfl rfl rfl

/-- Entry to LINE FAULT ends a contest of the queue's or abandons its message, so that nothing stays IN FLIGHT (R91,
R95). -/
theorem Work.enterLineFault_grounded (w : Work) (c : Cause) : Grounded w.s (w.enterLineFault c).s where
  station := rfl
  flight h := by
    have hended := h.endContest
    have hcontest : ¬w.s.endContest.queueContends := State.not_queueContends (by rw [State.endContest_contest])
    have hkept (p : Option Presenter) : QueueKept w.s.endContest.cq ((w.on State.endContest).voided p).s.cq :=
      (w.on State.endContest).voided_kept p
    refine .of_idle ((hkept _).sound hended.queue) ?_ rfl (by simp [Work.enterLineFault_line, FrameRecord.cleared])
    show Cq.Idle ((w.on State.endContest).voided (if w.s.originating then w.s.msu.frame.presenter else none)).s.cq
    by_cases hs : w.s.queueSends
    · obtain ⟨hphase, hrole, hpresenter⟩ := hs
      have hown : (if w.s.originating then w.s.msu.frame.presenter else none) = some .queue := by
        simp [State.originating, hphase, hrole, hpresenter]
      rw [hown]
      exact Cq.void_idle _
    · refine (hkept _).idle (hended.idle hcontest fun hs' => hs ?_)
      rwa [State.queueSends, State.endContest_msu] at hs'

/-- A drive fault keeps the claim or goes to LINE FAULT (R24, R47). -/
theorem Work.driveFault_sameClaim_or_grounded (w : Work) :
    SameClaim w.s w.driveFault.s ∨ Grounded w.s w.driveFault.s := by
  rw [Work.driveFault_s]
  split
  · exact .inl (.refl w.s)
  · dsimp only
    split
    · refine .inr (SameClaim.grounded ?_ (Work.enterLineFault_grounded _ _))
      exact .of_eq (.refl _) rfl rfl rfl rfl
    · refine .inl (SameClaim.trans ?_ (Work.raise_sameClaim _ 8))
      exact .of_eq (.refl _) rfl rfl rfl rfl

theorem Work.driveFault_keeps_flight {w : Work} (h : FlightOk w.s) : FlightOk w.driveFault.s :=
  w.driveFault_sameClaim_or_grounded.elim h.of_same fun g => g.flight h

theorem Work.ifFault_sameClaim_or_grounded (c : Bool) (w : Work) :
    SameClaim w.s (if c then w.driveFault else w).s ∨ Grounded w.s (if c then w.driveFault else w).s := by
  cases c
  · exact .inl (.refl w.s)
  · exact w.driveFault_sameClaim_or_grounded

/-- After a drive fault that may have been, the rest of a cell's happening need only do with the claim as it was: an
entry to LINE FAULT breaks the happening off (R23). -/
theorem Work.unlessFaulted_keeps_flight {s : State} {v : Work} {f : Work → Work} (h : FlightOk s)
    (hv : SameClaim s v.s ∨ Grounded s v.s) (hf : SameClaim s v.s → FlightOk (f v).s) :
    FlightOk (v.unlessFaulted f).s := by
  unfold Work.unlessFaulted
  split
  · exact hv.elim h.of_same fun g => g.flight h
  · next hrun => exact hf (hv.resolve_right fun g => hrun g.station)

/-! ### The count field and the presence cell -/

theorem Work.countComplete_sameClaim (w : Work) (active : Bool) : SameClaim w.s (w.countComplete active).s := by
  unfold Work.countComplete
  dsimp only
  split <;> split <;> exact .of_eq (.refl _) rfl rfl rfl rfl

theorem countCell_keeps_flight (order : OfferOrder) {s : State} (h : FlightOk s) (r : Reading) :
    FlightOk (countCell order s r) := by
  unfold countCell
  dsimp only
  split <;> [skip; exact h]
  have hv := (Work.start s).ifFault_sameClaim_or_grounded (s.driveFaulty s.lc.nextCell r)
  generalize (if s.driveFaulty s.lc.nextCell r = true then (Work.start s).driveFault else Work.start s) = v at hv ⊢
  refine Work.finish_keeps_flight order (Work.unlessFaulted_keeps_flight h hv fun hv => ?_)
  have hread : FlightOk (v.on fun x => x.setLc (x.lc.readCount (s.sends s.lc.nextCell) r)).s :=
    h.of_same (hv.trans (.of_eq (.refl _) rfl rfl rfl rfl))
  split
  · exact hread.of_same (Work.countComplete_sameClaim _ _)
  · exact hread

theorem Work.ownPresence_sameClaim (w : Work) (r : Reading) : SameClaim w.s (w.ownPresence r).s := by
  unfold Work.ownPresence
  split
  · cases r <;> exact .of_eq (.refl _) rfl rfl rfl rfl
  · cases r <;> exact .refl w.s
  · exact .refl w.s

theorem Work.otherPresence_sameClaim (w : Work) (i : Fin 32) (r : Reading) :
    SameClaim w.s (w.otherPresence i r).s := .of_eq (.refl _) rfl rfl rfl rfl

theorem execPresenceCell_keeps_flight {s t : State} (h : FlightOk s) (r : Reading) (order : OfferOrder)
    (e : execPresenceCell r order s = .next t) : FlightOk t := by
  obtain rfl := Host.Outcome.next.inj e
  split <;> [skip; exact h]
  have hv := (Work.start s).ifFault_sameClaim_or_grounded (s.driveFaulty 11 r)
  generalize (if s.driveFaulty 11 r = true then (Work.start s).driveFault else Work.start s) = v at hv ⊢
  refine Work.finish_keeps_flight order (Work.unlessFaulted_keeps_flight h hv fun hv => ?_)
  have hread : FlightOk (v.on fun x => x.setLc x.lc.advance).s :=
    h.of_same (hv.trans (.of_eq (.refl _) rfl rfl rfl rfl))
  dsimp only
  split
  · exact hread.of_same (Work.ownPresence_sameClaim _ r)
  · exact hread.of_same (Work.otherPresence_sameClaim _ _ r)

/-! ### The claim field -/

theorem State.reading_of_reads {s : State} {k : Nat} (h : s.reads k = true) : s.station.reading = true := by
  simp only [State.reads, State.readsFields, Bool.and_eq_true] at h
  exact h.1.1

/-- At the start of cell 12 nothing is IN FLIGHT, and the head goes IN FLIGHT as the queue's claim contends (R89). -/
theorem FlightOk.openClaim {s : State} (h : FlightOk s) : FlightOk s.openClaim := by
  unfold State.openClaim
  split <;> [skip; exact h]
  next hk =>
  obtain ⟨hreads, hopen, hphase⟩ := hk
  obtain ⟨hcontest, hp⟩ := h.closed (.inl hopen)
  have hi : s.cq.Idle := h.idle (State.not_queueContends hcontest) fun hs => hp hs.1
  split
  · exact .of_idle h.queue hi hcontest hp
  · next c item _ =>
    have hreading := State.reading_of_reads hreads
    have hclosed (t : State) (ho : t.lc.claimOpen = true) (hr : t.station = s.station) :
        t.lc.claimOpen = false ∨ t.station.reading = false →
          t.lc.contest = none ∧ t.msu.frame.phase ≠ .message := by
      rintro (hc | hc)
      · rw [ho] at hc
        cases hc
      · rw [hr, hreading] at hc
        cases hc
    dsimp only
    split
    · next hby =>
      exact .of_idle_unless (h.queue.launch hi) (fun hc => absurd ⟨c, rfl, hby⟩ hc) (hclosed _ rfl rfl)
    · exact .of_idle_unless h.queue (fun _ _ => hi) (hclosed _ rfl rfl)

/-- The claim field of the frame is being read: the queue agrees with the frame, which holds no message yet. -/
structure InClaim (s : State) : Prop where
  flight  : FlightOk s
  opened  : s.lc.claimOpen = true
  phase   : s.msu.frame.phase = .claim
  reading : s.station.reading = true

namespace InClaim

theorem of_same {s t : State} (h : InClaim s) (a : SameClaim s t) : InClaim t :=
  ⟨h.flight.of_same a, a.claimOpen.trans h.opened, a.phase.trans h.phase, a.reading h.reading⟩

theorem endContest {s : State} (h : InClaim s) : InClaim s.endContest where
  flight := h.flight.endContest
  opened := by rw [State.endContest_contest]; exact h.opened
  phase := by rw [State.endContest_msu]; exact h.phase
  reading := by rw [State.station, State.endContest_mu]; exact h.reading

theorem not_sends {s : State} (h : InClaim s) : ¬s.queueSends := fun hs => by
  rw [State.queueSends, h.phase] at hs
  cases hs.1

/-- While the claim field is read the claim is neither unopened nor unread. -/
theorem not_closed {s : State} (h : InClaim s) : ¬(s.lc.claimOpen = false ∨ s.station.reading = false) := by
  rw [h.opened, h.reading]
  simp

/-- At the end of the claim field an empty claim leaves nothing IN FLIGHT, a win of the queue's claim puts its entry on
the line, and any other claim finds no entry IN FLIGHT (R61, R62, R91). -/
theorem claimComplete {s : State} (h : InClaim s) : FlightOk s.claimComplete := by
  unfold State.claimComplete
  dsimp only
  split
  · have hended := h.endContest
    have hcontest : s.endContest.lc.contest = none := by rw [State.endContest_contest]
    exact .of_idle hended.flight.queue (hended.flight.idle (State.not_queueContends hcontest) hended.not_sends)
      hcontest (by simp)
  · split
    · next c hc =>
      refine .of_idle_unless h.flight.queue (fun _ hs => h.flight.idle ?_ h.not_sends) (absurd · h.not_closed)
      rw [State.queueContends_iff hc]
      exact fun hby => hs ⟨rfl, rfl, congrArg some hby⟩
    · next hc =>
      exact .of_idle_unless h.flight.queue
        (fun _ _ => h.flight.idle (State.not_queueContends hc) h.not_sends) (absurd · h.not_closed)

/-- Before a claim cell's reading is taken the claim field goes on, or LINE FAULT is entered. -/
theorem claimLine {s : State} (h : InClaim s) (r : Reading) :
    InClaim (s.claimLine r).s ∨ (s.claimLine r).s.station = .lineFault ∧ FlightOk (s.claimLine r).s := by
  unfold State.claimLine
  dsimp only
  have hkept : InClaim (if s.station = .active then s else s.endContest) := by
    split
    · exact h
    · exact h.endContest
  generalize (if s.station = .active then s else s.endContest) = t at hkept ⊢
  have hlost (lost : Bool) :
      InClaim (if lost then (Work.start t).on State.endContest else Work.start t).s := by
    cases lost
    · exact hkept
    · exact hkept.endContest
  have hw := hlost (t.sends s.lc.nextCell == some (!r))
  split
  · exact (Work.driveFault_sameClaim_or_grounded _).imp hw.of_same fun g => ⟨g.station, g.flight hw.flight⟩
  · exact .inl hw

end InClaim

theorem State.readClaim_sameClaim (s : State) (r : Reading) : SameClaim s (s.readClaim r) :=
  ⟨.refl _, rfl, rfl, id, rfl, rfl, rfl⟩

theorem claimCell_keeps_flight (order : OfferOrder) {s : State} (h : FlightOk s) (r : Reading) :
    FlightOk (claimCell order s r) := by
  rw [claimCell_eq]
  split <;> [skip; exact h]
  next hk =>
  obtain ⟨hreads, hopen, hphase, -⟩ := hk
  have hreading : s.station.reading = true := (Bool.and_eq_true_iff.1 hreads).1
  have hline := InClaim.claimLine ⟨h, hopen, hphase, hreading⟩ r
  refine Work.finish_keeps_flight order ?_
  unfold Work.unlessFaulted
  split
  · exact hline.elim InClaim.flight And.right
  · next hrun =>
    have hin := hline.resolve_right fun g => hrun g.1
    have hread : InClaim ((s.claimLine r).s.readClaim r) := hin.of_same (State.readClaim_sameClaim _ r)
    split
    · exact hread.claimComplete
    · exact hread.flight

theorem execClaimField_keeps_flight {s t : State} (h : FlightOk s) (cells : List Reading) (order : OfferOrder)
    (e : execClaimField cells order s = .next t) : FlightOk t := by
  obtain rfl := Host.Outcome.next.inj e
  exact List.foldlRecOn cells (claimCell order) h.openClaim fun u hu r _ => claimCell_keeps_flight order hu r

/-! ### The message -/

theorem Work.receive_sameClaim (w : Work) (r : Reading) : SameClaim w.s (w.receive r).s := by
  have hpad : SameClaim w.s (if w.s.msu.frame.atPad && !r then w.disturb else w).s := by
    split
    · exact w.disturb_sameClaim
    · exact .refl w.s
  unfold Work.receive
  dsimp only
  generalize (if (w.s.msu.frame.atPad && !r) = true then w.disturb else w) = v at hpad ⊢
  exact ⟨hpad.queue, hpad.contest, hpad.claimOpen, hpad.reading, rfl, rfl, rfl⟩

theorem Work.readBack_sameClaim (w : Work) (r : Reading) : SameClaim w.s (w.readBack r).s := by
  unfold Work.readBack
  dsimp only
  split
  · refine SameClaim.trans ?_ (Work.raise_sameClaim _ 4)
    exact ⟨.refl _, rfl, rfl, id, rfl, rfl, rfl⟩
  · exact ⟨.refl _, rfl, rfl, id, rfl, rfl, rfl⟩

theorem messageCell_keeps_flight (faultFirst : Bool) (order : OfferOrder) {s : State} (h : FlightOk s) (r : Reading) :
    FlightOk (messageCell faultFirst order s r) := by
  have hback {v : Work} (a : SameClaim s v.s) : FlightOk (v.readBack r).s :=
    h.of_same (a.trans (v.readBack_sameClaim r))
  unfold messageCell
  dsimp only
  split <;> [skip; exact h]
  split
  · exact Work.finish_keeps_flight order (h.of_same ((Work.start s).receive_sameClaim r))
  · split
    · split
      · exact Work.finish_keeps_flight order
          (Work.unlessFaulted_keeps_flight h (Work.start s).driveFault_sameClaim_or_grounded hback)
      · exact Work.finish_keeps_flight order (Work.driveFault_keeps_flight (hback (.refl s)))
    · exact Work.finish_keeps_flight order (hback (.refl s))

/-! ### The veto cell -/

/-- What follows an outcome is a matter of the presenting block: the queue's entry is no longer IN FLIGHT, and LC, the
frame record and the station state are as they were (R92, R93). -/
theorem Work.outcomeOf_flight (w : Work) (v : Verdict) (p : Option Presenter) :
    (w.outcomeOf v p).s.lc = w.s.lc ∧ (w.outcomeOf v p).s.msu = w.s.msu ∧ (w.outcomeOf v p).s.mu = w.s.mu ∧
      QueueKept w.s.cq (w.outcomeOf v p).s.cq ∧ (p = some .queue → (w.outcomeOf v p).s.cq.Idle) := by
  unfold Work.outcomeOf
  dsimp only
  split
  · split
    · exact ⟨rfl, rfl, rfl, .sent _, fun _ => w.s.cq.sent_idle⟩
    · have hsettled (s : State) : s.statementSettled.lc = s.lc ∧ s.statementSettled.msu = s.msu ∧
          s.statementSettled.mu = s.mu ∧ s.statementSettled.cq = s.cq := by
        unfold State.statementSettled
        split
        · exact ⟨rfl, rfl, rfl, rfl⟩
        · dsimp only
          split <;> split <;> exact ⟨rfl, rfl, rfl, rfl⟩
      obtain ⟨hlc, hmsu, hmu, hcq⟩ := hsettled (w.on State.ownSettled).s
      exact ⟨hlc, hmsu, hmu, by rw [Work.on_s, hcq]; exact .refl _, fun e => by cases e⟩
    · exact ⟨rfl, rfl, rfl, .refl _, fun e => by cases e⟩
  · cases p with
    | none => exact ⟨rfl, rfl, rfl, .refl _, fun e => by cases e⟩
    | some p =>
      cases p with
      | queue => exact ⟨rfl, rfl, rfl, .void _, fun _ => w.s.cq.void_idle⟩
      | generator => exact ⟨rfl, rfl, rfl, .refl _, fun e => by cases e⟩

/-- From `s` to `t` the frame's message has got its result, and the claim is otherwise as it was (R70). -/
structure GotResult (s t : State) : Prop where
  queue     : QueueKept s.cq t.cq
  contest   : t.lc.contest = s.lc.contest
  claimOpen : t.lc.claimOpen = s.lc.claimOpen
  reading   : s.station.reading = true → t.station.reading = true
  phase     : t.msu.frame.phase = .result

theorem GotResult.trans_same {s t u : State} (h : GotResult s t) (a : SameClaim t u) : GotResult s u :=
  ⟨h.queue.trans a.queue, a.contest.trans h.contest, a.claimOpen.trans h.claimOpen, a.reading ∘ h.reading,
    a.phase.trans h.phase⟩

/-- A message with a result leaves the queue in agreement with the frame, if its own entry is not IN FLIGHT. -/
theorem GotResult.flightOk {s t : State} (a : GotResult s t) (h : FlightOk s) (hsent : s.queueSends → t.cq.Idle) :
    FlightOk t := by
  refine .of_idle_unless (a.queue.sound h.queue) (fun hc _ => ?_) fun hclosed => ⟨?_, by rw [a.phase]; decide⟩
  · by_cases hs : s.queueSends
    · exact hsent hs
    · rw [State.queueContends, a.contest] at hc
      exact a.queue.idle (h.idle hc hs)
  · rw [a.contest]
    exact (h.closed_before a.claimOpen a.reading hclosed).1

theorem Work.outcomeOf_gotResult {s : State} {w : Work} (h : GotResult s w.s) (v : Verdict) (p : Option Presenter) :
    GotResult s (w.outcomeOf v p).s := by
  obtain ⟨hlc, hmsu, hmu, hq, -⟩ := w.outcomeOf_flight v p
  exact h.trans_same (.of_eq hq (by rw [hlc]) (by rw [hlc]) (by rw [State.station, hmu]) (by rw [hmsu]))

theorem State.takeResult_gotResult {s t : State} (a : SameClaim s t) (v : Verdict) : GotResult s (t.takeResult v) :=
  ⟨a.queue, a.contest, a.claimOpen, a.reading, rfl⟩

theorem Work.readVeto_keeps_flight {w : Work} (h : FlightOk w.s) (r : Reading) : FlightOk (w.readVeto r).s := by
  unfold Work.readVeto
  dsimp only
  have hraised : SameClaim w.s
      (if w.s.msu.frame.role = .receiver ∧ w.s.msu.frame.faultFound = true then w.raise 1 else w).s := by
    split
    · exact w.raise_sameClaim 1
    · exact .refl w.s
  generalize (if w.s.msu.frame.role = .receiver ∧ w.s.msu.frame.faultFound = true then w.raise 1 else w) = v
    at hraised ⊢
  have hresult : GotResult w.s (v.on fun s => s.takeResult (w.s.msu.frame.verdict r)).s :=
    State.takeResult_gotResult hraised _
  generalize (v.on fun s => s.takeResult (w.s.msu.frame.verdict r)) = u at hresult ⊢
  have hmarked : GotResult w.s (if w.s.msu.frame.verdict r = .discarded then u.on State.markZones else u).s := by
    split
    · exact hresult.trans_same (u.s.setZe_sameClaim _)
    · exact hresult
  generalize (if w.s.msu.frame.verdict r = .discarded then u.on State.markZones else u) = x at hmarked ⊢
  split
  · refine (Work.outcomeOf_gotResult ?_ _ _).flightOk h fun ⟨_, _, hpresenter⟩ => ?_
    · split
      · exact hmarked.trans_same (x.raise_sameClaim 4)
      · exact hmarked
    · obtain ⟨-, -, -, -, hidle⟩ := Work.outcomeOf_flight (if w.s.msu.frame.verdict r = .void ∧
        w.s.msu.frame.mismatch = false then x.raise 4 else x) (w.s.msu.frame.verdict r) w.s.msu.frame.presenter
      exact hidle hpresenter
  · next hrole => exact hmarked.flightOk h fun ⟨_, hown, _⟩ => absurd hown hrole

theorem execVetoCell_keeps_flight {s t : State} (h : FlightOk s) (r : Reading) (faultFirst : Bool)
    (order : OfferOrder) (e : execVetoCell r faultFirst order s = .next t) : FlightOk t := by
  obtain rfl := Host.Outcome.next.inj e
  split <;> [skip; exact h]
  have hdecided : FlightOk s.decideVeto := h.of_same ⟨.refl _, rfl, rfl, id, rfl, rfl, rfl⟩
  have hveto {v : Work} (a : SameClaim s.decideVeto v.s) : FlightOk (v.readVeto r).s :=
    Work.readVeto_keeps_flight (hdecided.of_same a) r
  have hfirst := hveto (v := .start s.decideVeto) (.refl _)
  dsimp only
  split
  · split
    · exact Work.finish_keeps_flight order
        (Work.unlessFaulted_keeps_flight hdecided (Work.start s.decideVeto).driveFault_sameClaim_or_grounded hveto)
    · exact Work.finish_keeps_flight order (Work.driveFault_keeps_flight hfirst)
  · exact Work.finish_keeps_flight order hfirst

end Sys2Proof.Machine

/-! Every step keeps the claim queue sound and in agreement with the frame (R80, R81, R83, R89 to R95). -/

namespace Sys2Proof.Machine

/-! ### A mark (R88, R91, R94, R96, R167) -/

theorem Work.keyOffer_sameClaim (w : Work) (k : Fin 4) (req : Option Request) :
    SameClaim w.s (w.keyOffer k req).s := by
  cases req with
  | none => exact .refl _
  | some r => exact .of_eq (.take _ _ _ _) rfl rfl rfl rfl

theorem Work.keyAtMark_sameClaim (m : MarkObs) (w : Work) (k : Fin 4) : SameClaim w.s (w.keyAtMark m k).s := by
  unfold Work.keyAtMark
  dsimp only
  refine SameClaim.trans ?_ (Work.keyOffer_sameClaim _ k _)
  exact .of_eq (.refl _) rfl rfl rfl rfl

theorem Work.queueTask_kept (m : MarkObs) (ended : Bool) (w : Work) (t : QueueTask) :
    QueueKept w.s.cq (w.queueTask m ended t).s.cq := by
  cases t with
  | frameEnd => cases ended <;> [exact .refl _; exact .land _]
  | sweep => exact .sweep _ _
  | key k => exact (w.keyAtMark_sameClaim m k).queue

theorem queueTasks_kept (m : MarkObs) (ended : Bool) (l : List QueueTask) (w : Work) :
    QueueKept w.s.cq (l.foldl (Work.queueTask m ended) w).s.cq := by
  induction l generalizing w with
  | nil => exact .refl _
  | cons t l ih => exact (w.queueTask_kept m ended t).trans (ih _)

/-- The tasks of a mark leave nothing IN FLIGHT: the frame's end is among them, and it lands the entry of a frame that
it ends (R91, R94). -/
theorem queueTasks_idle (m : MarkObs) {ended : Bool} {l : List QueueTask} (hl : .frameEnd ∈ l) {w : Work}
    (h : ended = false → w.s.cq.Idle) : (l.foldl (Work.queueTask m ended) w).s.cq.Idle := by
  obtain ⟨a, b, rfl⟩ := List.append_of_mem hl
  rw [List.foldl_append, List.foldl_cons]
  refine (queueTasks_kept m ended b _).idle ?_
  cases ended
  · exact (queueTasks_kept m false a w).idle (h rfl)
  · exact Cq.land_idle _

theorem mem_addTask {out : List QueueTask} {t u : QueueTask} (h : u = t ∨ u ∈ out) : u ∈ addTask out t := by
  unfold addTask
  split
  · next hin =>
    rcases h with rfl | h
    · simpa using hin
    · exact h
  · split
    · next hs => rcases h with rfl | h <;> simp_all
    · rcases h with rfl | h <;> simp_all

theorem mem_foldl_addTask {r out : List QueueTask} {u : QueueTask} (h : u ∈ r ∨ u ∈ out) :
    u ∈ r.foldl addTask out := by
  induction r generalizing out with
  | nil => simpa using h
  | cons t r ih =>
    refine ih ?_
    rcases h with h | h
    · rcases List.mem_cons.1 h with rfl | h
      · exact .inr (mem_addTask (.inl rfl))
      · exact .inl h
    · exact .inr (mem_addTask (.inr h))

/-- The frame's end is a task of every mark, named by the operand or not. -/
theorem frameEnd_mem_taskOrder (l : List QueueTask) : .frameEnd ∈ taskOrder l :=
  mem_foldl_addTask (.inl (by simp))

/-- A mark ends every contest and message, so it leaves nothing IN FLIGHT. -/
theorem takeMark_keeps_flight (k : MarkKind) (m : MarkObs) {s : State} (h : FlightOk s) :
    FlightOk (takeMark k m s) := by
  have hcq := (beforeQueue_leavesQueue k m s).cq
  have hkept := queueTasks_kept m (s.inFrame .queue) (taskOrder m.queueOrder) (beforeQueue k m s)
  refine .of_idle (t := takeMark k m s) (hkept.sound (hcq ▸ h.queue)) ?_ rfl ?_
  · refine queueTasks_idle (w := beforeQueue k m s) m (frameEnd_mem_taskOrder _) fun hout => ?_
    rw [hcq]
    have hno : ¬s.inFrame .queue = true := by simp [hout]
    rw [State.inFrame_iff, not_or] at hno
    obtain ⟨hcontends, hsends⟩ := hno
    exact h.idle hcontends fun ⟨hphase, _, hpresenter⟩ => hsends ⟨hphase, hpresenter⟩
  · show (FrameRecord.cleared (if k = .local_ then .noFrame else .claim)).phase ≠ .message
    split <;> decide

/-! ### Entries to LISTENING, resets and the configuration -/

/-- A station that reads no fields has nothing IN FLIGHT. -/
theorem FlightOk.idle_of_deaf {s : State} (h : FlightOk s) (hr : s.station.reading = false) : s.cq.Idle := by
  obtain ⟨hcontest, hphase⟩ := h.closed (.inr hr)
  exact h.idle (State.not_queueContends hcontest) fun hs => hphase hs.1

/-- An entry to LISTENING with nothing IN FLIGHT (R28, R32). -/
theorem Work.enterListening_flightOk {w : Work} (c : Cause) (hq : QueueOk w.s.cq) (hi : w.s.cq.Idle) :
    FlightOk (w.enterListening c).s :=
  .of_idle hq hi rfl (by simp [Work.enterListening_s, Msu.abandon, FrameRecord.cleared])

/-- Publication empties the claim queue (R205). -/
theorem State.configured_flightOk (s : State) (block : List Byte) (c : Cause) : FlightOk (s.configured block c) :=
  Work.finish_keeps_flight [] (Work.enterListening_flightOk (w := .start (s.publish (readBlock block))) c
    (.of_nil rfl) (Cq.idle_of_nil rfl))

theorem State.reset_flightOk (l : List Instr) : FlightOk (State.reset.setPending l) :=
  .of_idle (.of_nil rfl) (Cq.idle_of_nil rfl) rfl (show Phase.noFrame ≠ .message by decide)

theorem execResetEnd_keeps_flight {s t : State} (h : FlightOk s) (e : execResetEnd s = .next t) : FlightOk t := by
  obtain rfl := Host.Outcome.next.inj e
  split <;> [skip; exact h]
  next hs =>
  refine h.of_same ⟨.refl _, rfl, rfl, fun hr => ?_, rfl, rfl, rfl⟩
  rw [hs] at hr
  cases hr

/-- The end of a memory read: publication, or UNCONFIGURED (R203). -/
theorem State.judgeRead_keeps_flight {s : State} (h : FlightOk s) (hs : s.station = .loading) :
    FlightOk s.judgeRead := by
  unfold State.judgeRead
  split
  · exact s.configured_flightOk _ _
  · refine h.of_same ⟨.refl _, rfl, rfl, fun hr => ?_, rfl, rfl, rfl⟩
    rw [hs] at hr
    cases hr

theorem execMemoryReadEnd_keeps_flight {s t : State} (h : FlightOk s) (block : List Byte)
    (e : execMemoryReadEnd block s = .next t) : FlightOk t := by
  obtain rfl := Host.Outcome.next.inj e
  split <;> [skip; exact h]
  next hs =>
  have hread : FlightOk (s.setCl (block.foldl Cl.clockIn s.cl)) := h.of_same (.of_eq (.refl _) rfl rfl rfl rfl)
  dsimp only
  split
  · exact hread
  · exact State.judgeRead_keeps_flight hread hs.1

/-! ### The companion port -/

theorem State.setCp_sameClaim (s : State) (cp : Cp) : SameClaim s (s.setCp cp) := .of_eq (.refl _) rfl rfl rfl rfl

theorem State.doSend_keeps_flight {s : State} (h : FlightOk s) (tag : Byte) (body : List Byte) :
    FlightOk (s.doSend tag body) := by
  unfold State.doSend
  split
  · exact h.of_same (s.setCp_sameClaim _)
  · dsimp only
    split
    · exact h.of_same (.of_eq (.take _ _ _ _) rfl rfl rfl rfl)
    · exact h.of_same (s.setCp_sameClaim _)

theorem RequestType.action_keeps_flight {s : State} (h : FlightOk s) (t : RequestType) (tag : Byte)
    (body : List Byte) : FlightOk (t.action tag body s) := by
  cases t with
  | configure => exact State.configured_flightOk _ _ _
  | send => exact State.doSend_keeps_flight h tag body
  | _ => exact h.of_same (.of_eq (.refl _) rfl rfl rfl rfl)

theorem State.takeRequest_keeps_flight {s : State} (h : FlightOk s) (t : RequestType) (tag : Byte)
    (body : List Byte) : FlightOk (s.takeRequest t tag body (t.action tag body)) := by
  rcases s.takeRequest_cases t tag body (t.action tag body) with
    ⟨-, e⟩ | ⟨-, e⟩ | ⟨-, r, e⟩ | ⟨-, -, -, -, -, e⟩ <;> rw [e]
  · exact h
  · exact h.of_same (s.setCp_sameClaim _)
  · exact h.of_same (s.setCp_sameClaim _)
  · exact t.action_keeps_flight h tag body

theorem State.takeFrame_keeps_flight {s : State} (h : FlightOk s) (stored : List Byte) :
    FlightOk (s.takeFrame stored) := by
  unfold State.takeFrame
  dsimp only
  split
  · exact State.takeRequest_keeps_flight h _ _ _
  · split <;> exact h.of_same (s.setCp_sameClaim _)

theorem State.takeByte_keeps_flight {s : State} (h : FlightOk s) (b : Byte) (stop : Bool) :
    FlightOk (s.takeByte b stop) := by
  have hset (a : Assembler) : FlightOk (s.setAssembler a) := h.of_same (s.setCp_sameClaim _)
  have hfault : FlightOk s.linkFault := (hset .hunting).of_same (State.setCp_sameClaim _ _)
  unfold State.takeByte
  dsimp only
  split
  · split
    · exact hset _
    · exact h
  · split
    · exact hset _
    · exact hfault
  · split
    · split
      · exact hset _
      · split
        · exact State.takeFrame_keeps_flight (hset _) _
        · exact hfault
    · exact hfault

theorem execByteReceived_keeps_flight {s t : State} (h : FlightOk s) (b : Byte) (stop : Bool)
    (e : execByteReceived b stop s = .next t) : FlightOk t := by
  obtain rfl := Host.Outcome.next.inj e
  split
  · exact h
  · exact s.takeByte_keeps_flight h b stop

theorem execFrameGapTimeout_keeps_flight {s t : State} (h : FlightOk s) (e : execFrameGapTimeout s = .next t) :
    FlightOk t := by
  obtain rfl := Host.Outcome.next.inj e
  split
  · exact h
  · exact h.of_same (s.setCp_sameClaim _)

/-- The warm restart empties the queue (R101, R196). -/
theorem execFrameTransmitted_keeps_flight {s t : State} (h : FlightOk s) (e : execFrameTransmitted s = .next t) :
    FlightOk t := by
  obtain rfl := Host.Outcome.next.inj e
  split
  · exact h
  · split
    · exact Work.finish_keeps_flight [] (Work.enterListening_flightOk .restart (.of_nil rfl) (Cq.idle_of_nil rfl))
    · exact h.of_same (s.setCp_sameClaim _)

/-! ### Cells, faults and clears -/

/-- The silence measure is no matter of the claim field. -/
theorem Lc.measureSilence_claim (lc : Lc) (own threshold d : Nat) (transition : Bool) :
    (lc.measureSilence own threshold d transition).contest = lc.contest ∧
      (lc.measureSilence own threshold d transition).claimOpen = lc.claimOpen := by
  rcases lc.measureSilence_cases own threshold d transition with ⟨-, -, e⟩ | ⟨-, -, e⟩ | ⟨-, -, e⟩ | ⟨-, -, e⟩ <;>
    rw [e] <;> exact ⟨rfl, rfl⟩

theorem State.insideMark_sameClaim (s : State) (o : CellObs) : SameClaim s (s.insideMark o) := by
  unfold State.insideMark
  dsimp only
  split
  · obtain ⟨hcontest, hopen⟩ := Lc.measureSilence_claim (s.lc.measurePull s.conf.ownWidth
      (s.lc.counted o.width o.since) o.pulledFor) s.conf.ownWidth s.conf.foundingWidths
      (s.lc.counted o.width o.since) true
    exact .of_eq (.refl _) hcontest hopen rfl rfl
  · exact .of_eq (.refl _) rfl rfl rfl rfl

theorem State.beginCell_sameClaim (s : State) (o : CellObs) : SameClaim s (s.beginCell o) := by
  have hlc : (s.beginCell o).lc.contest = s.lc.contest ∧ (s.beginCell o).lc.claimOpen = s.lc.claimOpen := by
    unfold State.beginCell
    dsimp only [State.setLc_lc, State.setOu_lc]
    split
    · exact Lc.measureSilence_claim _ _ _ _ _
    · exact ⟨rfl, rfl⟩
  exact .of_eq (.refl _) hlc.1 hlc.2 rfl rfl

theorem State.faultCell_sameClaim (s : State) (o : CellObs) : SameClaim s (s.faultCell o) := by
  unfold State.faultCell
  dsimp only
  split <;> exact .of_eq (.refl _) rfl rfl rfl rfl

theorem execCellStart_keeps_flight {s t : State} (h : FlightOk s) (o : CellObs) (e : execCellStart o s = .next t) :
    FlightOk t := by
  have hcell : FlightOk (if (o.transition && s.inMark) = true then s.insideMark o
      else ((if s.disturbedBy o then (Work.start s).disturb else Work.start s).on (State.beginCell o)).finish []) := by
    split
    · exact h.of_same (s.insideMark_sameClaim o)
    · refine Work.finish_keeps_flight [] (FlightOk.of_same ?_ (State.beginCell_sameClaim _ o))
      split
      · exact h.of_same (Work.start s).disturb_sameClaim
      · exact h
  obtain rfl := Host.Outcome.next.inj e
  split
  · exact hcell
  · exact hcell
  · exact hcell
  · exact h.of_same (s.faultCell_sameClaim o)
  · exact h
  · exact h
  · exact h

theorem execStuckPull_keeps_flight {s t : State} (h : FlightOk s) (o : PullObs) (order : OfferOrder)
    (e : execStuckPull o order s = .next t) : FlightOk t := by
  obtain rfl := Host.Outcome.next.inj e
  dsimp only
  split <;> [skip; exact h]
  split
  · exact h.of_same (.of_eq (.refl _) rfl rfl rfl rfl)
  · refine Work.finish_keeps_flight order ((Work.enterLineFault_grounded (.start _) _).flight ?_)
    exact h.of_same (.of_eq (.refl _) rfl rfl rfl rfl)

/-- LINE FAULT reads no fields, so that the return to LISTENING finds nothing IN FLIGHT (R49). -/
theorem execLineClear_keeps_flight {s t : State} (h : FlightOk s) (e : execLineClear s = .next t) : FlightOk t := by
  obtain rfl := Host.Outcome.next.inj e
  split <;> [skip; exact h]
  next hs =>
  have hemptied : FlightOk ((s.setMu (s.mu.forgetOthers s.number)).setZe { s.ze with failsafe := 0 }) :=
    (h.of_same (s.setMu_sameClaim (s.mu.forgetOthers_station _))).of_same (State.setZe_sameClaim _ _)
  exact Work.finish_keeps_flight [] (Work.enterListening_flightOk (w := .start _) .lineClear hemptied.queue
    (hemptied.idle_of_deaf (by simp [hs.1, StationState.reading])))

/-! ### The rows that do a part of a mark, and the pulse trains -/

theorem execStale_keeps_flight {s t : State} (h : FlightOk s) (i : Nat) (e : execStale i s = .next t) :
    FlightOk t := by
  obtain rfl := Host.Outcome.next.inj e
  split
  · exact h.of_same (.of_eq (.sweepOne _ _ i) rfl rfl rfl rfl)
  · exact h

theorem State.holdKey_keeps_flight {s : State} (h : FlightOk s) (k : Fin 4) : FlightOk (s.holdKey k) := by
  unfold State.holdKey
  dsimp only
  refine Work.finish_keeps_flight [] (FlightOk.of_same ?_ (Work.keyOffer_sameClaim _ k _))
  exact h.of_same (.of_eq (.refl _) rfl rfl rfl rfl)

theorem State.reach_sameClaim (s : State) (p : Nat) : SameClaim s (s.reach p) := by
  unfold State.reach
  split
  · exact .of_eq (.refl _) rfl rfl rfl rfl
  · exact .refl s

theorem execOutputPeriodStart_keeps_flight {s t : State} (h : FlightOk s) (ch : Fin 4) (n : Nat)
    (e : execOutputPeriodStart ch n s = .next t) : FlightOk t := by
  obtain rfl := Host.Outcome.next.inj e
  split
  · exact h.of_same (s.reach_sameClaim _)
  · exact h

theorem execPulseEdge_keeps_flight {s t : State} (h : FlightOk s) (ch : Fin 4) (pos : Nat)
    (e : execPulseEdge ch pos s = .next t) : FlightOk t := by
  obtain rfl := Host.Outcome.next.inj e
  split
  · split
    · exact h.of_same (s.reach_sameClaim _)
    · exact h
  · exact h

/-! ### Every command -/

theorem exec_keeps_flight {s t : State} (h : FlightOk s) (c : Instr) (e : exec c s = .next t) : FlightOk t := by
  have hif (p : Prop) [Decidable p] {u : State} (hu : FlightOk u) : FlightOk (if p then u else s) := by
    split
    · exact hu
    · exact h
  have hcells {f : State → Reading → State} (hf : ∀ u, FlightOk u → ∀ r, FlightOk (f u r)) (cells : List Reading) :
      FlightOk (cells.foldl f s) := List.foldlRecOn cells f h fun u hu r _ => hf u hu r
  cases c with
  | coldReset =>
    obtain rfl := Host.Outcome.next.inj e
    exact State.reset_flightOk s.pending
  | resetEnd => exact execResetEnd_keeps_flight h e
  | memoryReadEnd block => exact execMemoryReadEnd_keeps_flight h block e
  | byteReceived data stop => exact execByteReceived_keeps_flight h data stop e
  | frameGapTimeout => exact execFrameGapTimeout_keeps_flight h e
  | configure tag body | send tag body | queryStation tag body | queryZone tag body | queryMembers tag body
  | queryScene tag body | subscribe tag body | restart tag body =>
    obtain rfl := Host.Outcome.next.inj e
    exact State.takeRequest_keeps_flight h _ tag body
  | frameTransmitted => exact execFrameTransmitted_keeps_flight h e
  | cellStart o => exact execCellStart_keeps_flight h o e
  | frameTimerExpiry m | frameMark m | localFrameMark m | founding m =>
    obtain rfl := Host.Outcome.next.inj e
    exact hif _ (takeMark_keeps_flight _ m h)
  | fadeEnd z | holdExpiry z | aged z =>
    obtain rfl := Host.Outcome.next.inj e
    exact hif _ (h.of_same (.of_eq (.refl _) rfl rfl rfl rfl))
  | failsafe =>
    obtain rfl := Host.Outcome.next.inj e
    exact hif _ (h.of_same (.of_eq (.refl _) rfl rfl rfl rfl))
  | stale i => exact execStale_keeps_flight h i e
  | longPress k | repeatDue k =>
    obtain rfl := Host.Outcome.next.inj e
    exact hif _ (State.holdKey_keeps_flight h k)
  | countField cells order =>
    obtain rfl := Host.Outcome.next.inj e
    exact hcells (fun u hu r => countCell_keeps_flight order hu r) cells
  | presenceCell r order => exact execPresenceCell_keeps_flight h r order e
  | claimField cells order => exact execClaimField_keeps_flight h cells order e
  | message cells faultFirst order =>
    obtain rfl := Host.Outcome.next.inj e
    exact hcells (fun u hu r => messageCell_keeps_flight faultFirst order hu r) cells
  | vetoCell r faultFirst order => exact execVetoCell_keeps_flight h r faultFirst order e
  | stuckPull o order => exact execStuckPull_keeps_flight h o order e
  | lineClear => exact execLineClear_keeps_flight h e
  | outputPeriodStart ch n => exact execOutputPeriodStart_keeps_flight h ch n e
  | pulseEdge ch pos => exact execPulseEdge_keeps_flight h ch pos e

/-- Settles O57, command by command: an entry goes IN FLIGHT as its claim contends, and every happening that ends the
contest or the message lands or removes it. -/
theorem stepsKeepTheClaimQueue : Obligations.StepsKeepTheClaimQueue := by
  intro s t h e
  unfold step at e
  split at e
  · obtain rfl := Host.Outcome.next.inj e
    exact h
  · next c rest _ =>
    exact exec_keeps_flight (h.of_same (.of_eq (.refl _) rfl rfl rfl rfl) : FlightOk (s.setPending rest)) c e

end Sys2Proof.Machine

/-! Coalescing: which QUEUED entry an offer meets, and what the offer makes of the list (R83 to R87, R97, R98). -/

namespace Sys2Proof.Machine

/-! ### The latest-admitted QUEUED entry (R83) -/

theorem latestQueued_append (p : Request → Bool) (l : List Entry) (x : Entry) :
    latestQueued p (l ++ [x]) =
      if !x.inFlight && p x.req then
        match latestQueued p l with
        | none => some x
        | some b => if b.order ≤ x.order then some x else some b
      else latestQueued p l := by
  rw [latestQueued, List.foldl_append]
  rfl

/-- Where a QUEUED entry satisfies the test, one is found, and it was admitted no earlier. -/
theorem latestQueued_of_mem {p : Request → Bool} {l : List Entry} {e : Entry} (hm : e ∈ l)
    (hq : e.inFlight = false) (hp : p e.req = true) : ∃ b, latestQueued p l = some b ∧ e.order ≤ b.order := by
  induction l using List.reverseRecOn with
  | nil => cases hm
  | append_singleton l x ih =>
    rw [latestQueued_append]
    rcases List.mem_append.1 hm with hm | hm
    · obtain ⟨b, hb, hle⟩ := ih hm
      rw [hb]
      dsimp only
      split
      · split
        · next hbx => exact ⟨x, rfl, hle.trans hbx⟩
        · exact ⟨b, rfl, hle⟩
      · exact ⟨b, rfl, hle⟩
    · obtain rfl := List.mem_singleton.1 hm
      rw [if_pos (by simp [hq, hp])]
      cases latestQueued p l with
      | none => exact ⟨e, rfl, le_rfl⟩
      | some b =>
        dsimp only
        split
        · exact ⟨e, rfl, le_rfl⟩
        · next hlt => exact ⟨b, rfl, le_of_not_ge hlt⟩

/-- Entries of one admission are one. -/
theorem eq_of_order_eq {l : List Entry} (h : l.Pairwise fun a b => a.order ≠ b.order) {a b : Entry} (ha : a ∈ l)
    (hb : b ∈ l) (e : a.order = b.order) : a = b :=
  List.inj_on_of_nodup_map (List.pairwise_map.2 h) ha hb e

/-- The one found is the QUEUED entry that no other of its kind was admitted after. -/
theorem latestQueued_eq {p : Request → Bool} {l : List Entry} (h : l.Pairwise fun a b => a.order ≠ b.order)
    {old : Entry} (hm : old ∈ l) (hq : old.inFlight = false) (hp : p old.req = true)
    (hmax : ∀ e ∈ l, e.inFlight = false → p e.req = true → e.order ≤ old.order) : latestQueued p l = some old := by
  obtain ⟨b, hb, hle⟩ := latestQueued_of_mem hm hq hp
  obtain ⟨hbm, hbq, hbp⟩ := latestQueued_some hb
  rw [hb, eq_of_order_eq h hbm hm (le_antisymm (hmax b hbm hbq hbp) hle)]

/-- With no QUEUED entry that satisfies the test, none is found. -/
theorem latestQueued_eq_none {p : Request → Bool} {l : List Entry}
    (h : ∀ e ∈ l, e.inFlight = false → p e.req = false) : latestQueued p l = none := by
  cases e : latestQueued p l with
  | none => rfl
  | some b =>
    obtain ⟨hbm, hbq, hbp⟩ := latestQueued_some e
    rw [h b hbm hbq] at hbp
    cases hbp

/-- The QUEUED entry of an admission is that entry. -/
theorem waitsAs_iff {l : List Entry} (h : l.Pairwise fun a b => a.order ≠ b.order) {old : Entry} (hm : old ∈ l)
    (hq : old.inFlight = false) {e : Entry} (he : e ∈ l) : e.waitsAs old.order = true ↔ e = old := by
  simp only [Entry.waitsAs, Bool.and_eq_true, Bool.not_eq_true', beq_iff_eq]
  exact ⟨fun ⟨_, ho⟩ => eq_of_order_eq h he hm ho, by rintro rfl; exact ⟨hq, rfl⟩⟩

/-- Without the QUEUED entry of an admission the queue holds all its other entries. -/
theorem Cq.without_entries {q : Cq} (h : q.entries.Pairwise fun a b => a.order ≠ b.order) {old : Entry}
    (hm : old ∈ q.entries) (hq : old.inFlight = false) :
    (q.without old.order).entries = q.entries.filter fun e => decide (e ≠ old) :=
  List.filter_congr fun e he => by
    rw [Bool.eq_iff_iff, Bool.not_eq_true', ← Bool.not_eq_true, waitsAs_iff h hm hq he, decide_eq_true_eq]

/-! ### Tests of a request's kind -/

theorem Request.isStepOn_iff {z : Fin 16} {r : Request} : r.isStepOn z = true ↔ ∃ d, r = .step z d := by
  cases r <;> simp [Request.isStepOn]

theorem Request.isToggleOn_iff {z : Fin 16} {r : Request} : r.isToggleOn z = true ↔ ∃ c, r = .toggle z c := by
  cases r <;> simp [Request.isToggleOn]

/-! ### Removal and admission (R82, R86, R87) -/

/-- What an offer gives that removes the QUEUED entries of some kind as REPLACED and is then admitted: it takes its
place behind its priority below 8 entries, and is turned away at 8 where nothing is removed. -/
theorem Cq.take_replaces {q : Cq} {src : Source} {prio : Nat} {req : Request} {same : Request → Bool}
    (h : q.take src prio req =
      ({ q with entries := q.entries.filter fun e : Entry => !(!e.inFlight && same e.req) }).enrol src prio req
        ((q.entries.filter fun e : Entry => !e.inFlight && same e.req).flatMap fun e : Entry =>
          outcomeReport e.source .replaced)) :
    ((q.entries.filter fun e : Entry => !(!e.inFlight && same e.req)).length < 8 →
      (q.take src prio req).taken = true ∧ (q.take src prio req).cq.counts = q.counts ∧
      (q.take src prio req).cq.entries = placed ⟨src, prio, req, 0, 0, false, q.nextOrder⟩
        (q.entries.filter fun e : Entry => !(!e.inFlight && same e.req)) ∧
      (q.take src prio req).reports =
        (q.entries.filter fun e : Entry => !e.inFlight && same e.req).flatMap fun e : Entry =>
          outcomeReport e.source .replaced) ∧
    (q.entries.length = 8 → (∀ e ∈ q.entries, (!e.inFlight && same e.req) = false) →
      (q.take src prio req).taken = false ∧ (q.take src prio req).reports = [] ∧
      (q.take src prio req).cq.entries = q.entries ∧
      (∀ tag, src = .companion tag → (q.take src prio req).cq = q) ∧
      ∀ i : Fin 4, src = .key i →
        (q.take src prio req).cq.counts[i].dropped = min 255 (q.counts[i].dropped + 1)) := by
  rw [h]
  refine ⟨fun hlen => ?_, fun hlen hnone => ?_⟩
  · obtain ⟨htaken, hreports, hcounts, hentries⟩ := Cq.enrol_admits (q := { q with
      entries := q.entries.filter fun e : Entry => !(!e.inFlight && same e.req) }) hlen src prio req _
    exact ⟨htaken, hcounts, hentries, hreports⟩
  · have hrest : (q.entries.filter fun e : Entry => !(!e.inFlight && same e.req)) = q.entries :=
      List.filter_eq_self.2 fun e he => by rw [hnone e he]; rfl
    have hgone : (q.entries.filter fun e : Entry => !e.inFlight && same e.req) = [] :=
      List.filter_eq_nil_iff.2 fun e he => by rw [hnone e he]; exact Bool.false_ne_true
    rw [hrest, hgone]
    exact Cq.enrol_full hlen src prio req []

/-- A request that replaces those of some kind. -/
theorem Cq.take_replacing_same {q : Cq} {src : Source} {prio : Nat} {req : Request} {same : Request → Bool}
    (h : req.replacing = true) (hsame : ∀ r, req.replaces r = same r) :
    q.take src prio req =
      ({ q with entries := q.entries.filter fun e : Entry => !(!e.inFlight && same e.req) }).enrol src prio req
        ((q.entries.filter fun e : Entry => !e.inFlight && same e.req).flatMap fun e : Entry =>
          outcomeReport e.source .replaced) := by
  obtain rfl : req.replaces = same := funext hsame
  exact q.take_replacing src prio h

/-- An admission outright is one that removes nothing. -/
theorem Cq.enrol_removing_none (q : Cq) (src : Source) (prio : Nat) (req : Request) :
    q.enrol src prio req [] =
      ({ q with entries := q.entries.filter fun e : Entry => !(!e.inFlight && false) }).enrol src prio req
        ((q.entries.filter fun e : Entry => !e.inFlight && false).flatMap fun e : Entry =>
          outcomeReport e.source .replaced) := by
  simp

/-- Settles O41: a STEP and a TOGGLE meet the latest-admitted entry of their kind, which distinct admissions make one
entry; the other kinds remove what they replace and are admitted. -/
theorem requestsCoalesceWithQueuedOnes : Obligations.RequestsCoalesceWithQueuedOnes := by
  intro q src prio z hd
  refine ⟨fun d d0 old hm hq hreq hmax => ?_, fun c c0 old hm hq hreq hmax => ?_, ?_⟩
  · have hold : latestQueued (Request.isStepOn z) q.entries = some old :=
      latestQueued_eq hd hm hq (Request.isStepOn_iff.2 ⟨d0, hreq⟩) fun e he hf hp =>
        hmax e he hf (Request.isStepOn_iff.1 hp)
    have hsum : foldSteps old.req.stepOf d = max (-511) (min 511 (d0 + d)) := by rw [hreq]; rfl
    rw [Cq.take_step, hold]
    dsimp only
    rw [hsum]
    split
    · next hzero => exact ⟨rfl, fun hne => absurd hzero hne, fun _ => ⟨rfl, Cq.without_entries hd hm hq⟩⟩
    · next hne =>
      refine ⟨rfl, fun _ => ⟨rfl, List.map_congr_left fun e he => ?_⟩, fun hzero => absurd hzero hne⟩
      simp only [waitsAs_iff hd hm hq he]
  · have hold : latestQueued (Request.isToggleOn z) q.entries = some old :=
      latestQueued_eq hd hm hq (Request.isToggleOn_iff.2 ⟨c0, hreq⟩) fun e he hf hp =>
        hmax e he hf (Request.isToggleOn_iff.1 hp)
    rw [Cq.take_toggle, hold]
    exact ⟨rfl, rfl, Cq.without_entries hd hm hq⟩
  · intro replaces level recalls occupy
    refine ⟨fun c l => ?_, ?_, fun sc c => ?_, fun k c v => ?_, fun d hnone => ?_, fun c hnone => ?_⟩
    · exact Cq.take_replaces (Cq.take_replacing_same rfl fun r => by cases r <;> rfl)
    · exact Cq.take_replaces (Cq.take_replacing_same rfl fun r => by cases r <;> rfl)
    · exact Cq.take_replaces (Cq.take_replacing_same rfl fun r => by cases r <;> rfl)
    · exact Cq.take_replaces (Cq.take_replacing_same rfl fun r => by cases r <;> rfl)
    · have hold : latestQueued (Request.isStepOn z) q.entries = none := latestQueued_eq_none fun e he hf =>
        Bool.eq_false_iff.2 fun hp => (Request.isStepOn_iff.1 hp).elim (hnone e he hf)
      refine Cq.take_replaces (same := fun _ => false) ?_
      rw [Cq.take_step, hold]
      exact q.enrol_removing_none src prio _
    · have hold : latestQueued (Request.isToggleOn z) q.entries = none := latestQueued_eq_none fun e he hf =>
        Bool.eq_false_iff.2 fun hp => (Request.isToggleOn_iff.1 hp).elim (hnone e he hf)
      refine Cq.take_replaces (same := fun _ => false) ?_
      rw [Cq.take_toggle, hold]
      exact q.enrol_removing_none src prio _

end Sys2Proof.Machine

/-! SEND and the claim queue: the offer, the ACCEPT and the OUTCOMEs (R82, R87, R97, R185). -/

namespace Sys2Proof.Machine

/-- A happening whose reports are OUTCOMEs alone offers them in their order. -/
theorem Work.finish_outcomes (s : State) (l : List Report) :
    ((Work.start s).outcomes l).finish [] = s.setCp (s.cp.offerAll l) := by
  rw [Work.finish_eq]
  congr 2
  simp [Work.outcomes, interleave, Work.start, Offers.lists]

/-- A running station refuses no request but CONFIGURE for its state (R183). -/
theorem RequestType.stateFault_of_running {t : RequestType} (ht : t ≠ .configure) {st : StationState}
    (h : st.running = true) : t.stateFault st = none := by
  cases t with
  | configure => exact absurd rfl ht
  | _ => cases st <;> simp_all [RequestType.stateFault, StationState.running]

/-- A running station with an empty reply slot acts on a SEND of a right body (R182, R183). -/
theorem execSend_eq_doSend {s : State} (hrun : s.station.running = true) (hslot : s.cp.slot = none) (tag : Byte)
    {body : List Byte} (hlen : sendLengthOk body = true) (hfault : sendFault body = none) :
    exec (.send tag body) s = .next (s.doSend tag body) := by
  have hreset : s.station ≠ .reset := fun e => by
    rw [e] at hrun
    cases hrun
  have hstate : RequestType.stateFault .send s.station = none :=
    RequestType.stateFault_of_running (by decide) hrun
  have hbody : RequestType.lengthOk .send body = true := hlen
  have hfield : RequestType.fieldFault .send body = none := hfault
  show Host.Outcome.next _ = _
  rw [State.takeRequest, if_neg hreset, if_neg (by simp [hslot]), if_pos hbody, hstate, hfield]

/-- Settles O13: the action of SEND is the offer, the reply and the OUTCOMEs. -/
theorem sendIsOfferedToTheQueue : Obligations.SendIsOfferedToTheQueue := by
  intro tag body req s hrun hslot hlen hfault hreq k
  rw [execSend_eq_doSend hrun hslot tag hlen hfault, State.doSend, hreq]
  dsimp only
  refine ⟨fun htaken => ?_, fun hturned => ?_⟩
  · rw [if_pos htaken, Work.finish_outcomes]
    rfl
  · rw [if_neg (by rw [hturned]; exact Bool.false_ne_true)]
    rfl

end Sys2Proof.Machine

/-! The key channels: what a mark makes of each and what it offers, and the rows LONG_PRESS and REPEAT (R164 to R173,
R175). -/

namespace Sys2Proof.Machine

/-! ### A channel's requests -/

theorem KeySettings.stepRequest_eq (c : KeySettings) (down : Bool) :
    c.stepRequest down = .step c.target (if down then -(c.param : Int) else c.param) := rfl

theorem KeySettings.occupyRequest_eq (c : KeySettings) :
    c.occupyRequest = .occupy c.target (Fin.ofNat 16 (c.param / 1024)) c.fade (c.param % 1024) := rfl

theorem KeySettings.pressRequest_eq (c : KeySettings) :
    c.pressRequest = if c.func = .occupy then
        some (.occupy c.target (Fin.ofNat 16 (c.param / 1024)) c.fade (c.param % 1024))
      else if c.func = .level then some (.level c.target c.fade c.param) else none := by
  unfold KeySettings.pressRequest
  cases c.func <;> rfl

theorem KeySettings.releaseRequest_eq (c : KeySettings) (long : Bool) :
    c.releaseRequest long = if long = true then none
      else if c.func = .toggleDim then some (.toggle c.target c.fade)
      else if c.func = .scene then some (.recall c.target c.fade) else none := by
  unfold KeySettings.releaseRequest
  cases c.func <;> cases long <;> rfl

/-! ### A held key (R166) -/

theorem KeyChannel.nextAge_eq (k : KeyChannel) : k.nextAge = min 255 (k.age + 1) := rfl

theorem KeyChannel.reaches_iff (k : KeyChannel) (threshold : Nat) :
    k.reaches threshold = true ↔ k.long = false ∧ min 255 (k.age + 1) = threshold := by
  rw [KeyChannel.reaches, KeyChannel.nextAge_eq, Bool.and_eq_true, Bool.not_eq_true', beq_iff_eq]

theorem KeyChannel.counts_iff (k : KeyChannel) (c : KeySettings) :
    k.counts c = true ↔ k.long = true ∨ c.func = .occupy := by
  rw [KeyChannel.counts, Bool.or_eq_true, beq_iff_eq]

theorem KeyChannel.repeatsNext_iff (k : KeyChannel) (c : KeySettings) :
    k.repeatsNext c = true ↔ (k.long = true ∨ c.func = .occupy) ∧ c.interval ≤ k.repeats + 1 := by
  rw [KeyChannel.repeatsNext, Bool.and_eq_true, KeyChannel.counts_iff, decide_eq_true_eq]

/-- A held key ages, turns long at the threshold, and counts its repeats. -/
theorem KeyChannel.hold_channel (k : KeyChannel) (c : KeySettings) (threshold : Nat) :
    (k.hold c threshold).1 = { k with
      age := min 255 (k.age + 1)
      long := k.long || decide (min 255 (k.age + 1) = threshold)
      repeats := if k.long = true ∨ c.func = .occupy then (if c.interval ≤ k.repeats + 1 then 0 else k.repeats + 1)
        else k.repeats } := by
  have hlong : (k.long || k.reaches threshold) = (k.long || decide (min 255 (k.age + 1) = threshold)) := by
    rw [KeyChannel.reaches, KeyChannel.nextAge_eq]
    cases k.long <;> rfl
  rw [KeyChannel.hold, hlong, KeyChannel.nextAge_eq]
  simp only [KeyChannel.repeatsNext_iff, KeyChannel.counts_iff]
  by_cases hcounts : k.long = true ∨ c.func = .occupy <;> simp [hcounts]

/-- What a held key offers: at the threshold a TOGGLE-DIM channel a STEP and a SCENE channel a CAPTURE, at a repeat a
TOGGLE-DIM channel past its long press another STEP and an OCCUPY channel another OCCUPY (R169, R171, R172). -/
theorem KeyChannel.hold_offer (k : KeyChannel) (c : KeySettings) (threshold : Nat) :
    (k.hold c threshold).2 = match c.func with
      | .toggleDim =>
        if k.long = false ∧ min 255 (k.age + 1) = threshold ∨ k.long = true ∧ c.interval ≤ k.repeats + 1 then
          some (.step c.target (if k.down then -(c.param : Int) else c.param)) else none
      | .scene => if k.long = false ∧ min 255 (k.age + 1) = threshold then some (.capture c.target) else none
      | .occupy => if c.interval ≤ k.repeats + 1 then
          some (.occupy c.target (Fin.ofNat 16 (c.param / 1024)) c.fade (c.param % 1024)) else none
      | _ => none := by
  have hoffer : (k.hold c threshold).2 =
      if k.reaches threshold = true ∧ (c.thresholdRequest k.down).isSome = true then c.thresholdRequest k.down
      else if k.repeatsNext c = true then c.repeatRequest k.down else none := by
    rw [KeyChannel.hold]
    simp only [Bool.and_eq_true]
  rw [hoffer]
  simp only [KeyChannel.reaches_iff, KeyChannel.repeatsNext_iff]
  cases hf : c.func with
  | toggleDim =>
    simp only [KeySettings.thresholdRequest, KeySettings.repeatRequest, hf, KeySettings.stepRequest_eq]
    by_cases hlong : k.long = true <;> simp [hlong]
  | scene => simp [KeySettings.thresholdRequest, KeySettings.repeatRequest, hf]
  | occupy => simp [KeySettings.thresholdRequest, KeySettings.repeatRequest, hf, KeySettings.occupyRequest_eq]
  | off | level => simp [KeySettings.thresholdRequest, KeySettings.repeatRequest, hf]

/-! ### A channel at a mark (R164 to R166, R175) -/

section
variable (k : KeyChannel) (c : KeySettings) (threshold : Nat) (high : Bool)

theorem KeyChannel.atMark_off (hf : c.func = .off) : k.atMark c threshold high = (k, none) := if_pos hf

/-- A second sample ACTIVE in a row of a key that is not pressed is a press. -/
theorem KeyChannel.atMark_press (hf : c.func ≠ .off) (hp : k.pressed = false) (hn : c.sample high = true)
    (hprev : k.previous = some true) : k.atMark c threshold high = k.press c := by
  simp [KeyChannel.atMark, KeyChannel.press, hf, hp, hn, hprev]

/-- A second sample INACTIVE in a row of a pressed key is a release. -/
theorem KeyChannel.atMark_release (hf : c.func ≠ .off) (hp : k.pressed = true) (hn : c.sample high = false)
    (hprev : k.previous = some false) : k.atMark c threshold high = k.release c := by
  simp [KeyChannel.atMark, KeyChannel.release, hf, hp, hn, hprev]

/-- A key that is not pressed, without a press, keeps its sample alone. -/
theorem KeyChannel.atMark_idle (hf : c.func ≠ .off) (hp : k.pressed = false)
    (hn : c.sample high = false ∨ k.previous ≠ some true) :
    k.atMark c threshold high = ({ k with previous := some (c.sample high) }, none) := by
  cases hs : c.sample high <;> simp_all [KeyChannel.atMark]

/-- A pressed key without a release is held. -/
theorem KeyChannel.atMark_hold (hf : c.func ≠ .off) (hp : k.pressed = true)
    (hn : c.sample high = true ∨ k.previous ≠ some false) :
    k.atMark c threshold high =
      ({ (k.hold c threshold).1 with previous := some (c.sample high) }, (k.hold c threshold).2) := by
  cases hs : c.sample high <;> simp_all [KeyChannel.atMark]

end

/-! ### The key unit at a mark (R164, R167) -/

/-- A key's task steps its channel. -/
theorem Work.queueTask_channel (m : MarkObs) (ended : Bool) (w : Work) (k : Fin 4) :
    (w.queueTask m ended (.key k)).s.ku.channels[k] =
      (w.s.ku.channels[k].atMark w.s.conf.keys[k] w.s.conf.longPress (m.keys.getLsbD k)).1 := by
  unfold Work.queueTask Work.keyAtMark
  rw [(Work.keyOffer_same _ k _).2]
  simp

/-- The tasks without a key's own leave its channel and the settings as they were. -/
theorem queueTasks_frame (m : MarkObs) (ended : Bool) {k : Fin 4} {l : List QueueTask} (h : .key k ∉ l) (w : Work) :
    (l.foldl (Work.queueTask m ended) w).s.cl = w.s.cl ∧
      (l.foldl (Work.queueTask m ended) w).s.ku.channels[k] = w.s.ku.channels[k] := by
  induction l generalizing w with
  | nil => exact ⟨rfl, rfl⟩
  | cons t l ih =>
    rw [List.mem_cons, not_or] at h
    obtain ⟨hcl, hku⟩ := w.queueTask_frame m ended t
    obtain ⟨hcl', hku'⟩ := ih h.2 (w.queueTask m ended t)
    exact ⟨hcl'.trans hcl, hku'.trans (hku k (Ne.symm h.1))⟩

/-- Tasks among which a key's own comes once step its channel once. -/
theorem queueTasks_channel (m : MarkObs) (ended : Bool) {k : Fin 4} {l : List QueueTask} (hl : l.Nodup)
    (hk : .key k ∈ l) (w : Work) :
    (l.foldl (Work.queueTask m ended) w).s.ku.channels[k] =
      (w.s.ku.channels[k].atMark w.s.conf.keys[k] w.s.conf.longPress (m.keys.getLsbD k)).1 := by
  obtain ⟨a, b, rfl⟩ := List.append_of_mem hk
  obtain ⟨hb, hab⟩ := List.nodup_cons.1 (List.nodup_middle.1 hl)
  rw [List.mem_append, not_or] at hb
  obtain ⟨hcl, hku⟩ := queueTasks_frame m ended hb.1 w
  rw [List.foldl_append, List.foldl_cons, (queueTasks_frame m ended hb.2 _).2, Work.queueTask_channel, hku, State.conf,
    hcl, State.conf]

/-- A mark of any kind steps every key channel by its sample. -/
theorem takesMark_channels {i : Instr} {m : MarkObs} {s : State} (h : takesMark i m s) (hm : m.wellFormed = true) :
    ∃ t, exec i s = .next t ∧ ∀ k : Fin 4, t.ku.channels[k] =
      (s.ku.channels[k].atMark s.conf.keys[k] s.conf.longPress (m.keys.getLsbD k)).1 := by
  obtain ⟨kind, hexec⟩ := takesMark_exec h
  refine ⟨_, hexec, fun k => ?_⟩
  have hbefore := beforeQueue_leavesQueue kind m s
  have hmem : QueueTask.key k ∈ m.queueOrder := (completeOrder_perm hm).subset (by fin_cases k <;> decide)
  have hsteps := queueTasks_channel m (s.inFrame .queue) (completeOrder_nodup hm) hmem (beforeQueue kind m s)
  rw [hbefore.ku, hbefore.conf, ← taskOrder_complete _ hm] at hsteps
  exact hsteps

/-! ### The rows LONG_PRESS and REPEAT -/

/-- A held key's part of a mark: its channel steps, and the claim queue takes its offer as a key's. -/
theorem State.holdKey_eq {s : State} {k : Fin 4} {r : Request}
    (h : (s.ku.channels[k].hold s.conf.keys[k] s.conf.longPress).2 = some r) :
    s.holdKey k =
      ((s.setKu ⟨s.ku.channels.set k (s.ku.channels[k].hold s.conf.keys[k] s.conf.longPress).1⟩).setCq
        (s.cq.take (.key k) s.conf.keys[k].prio r).cq).setCp
        (s.cp.offerAll (s.cq.take (.key k) s.conf.keys[k].prio r).reports) := by
  unfold State.holdKey
  dsimp only
  rw [h]
  exact Work.finish_outcomes ((s.setKu ⟨s.ku.channels.set k _⟩).setCq (s.cq.take (.key k) s.conf.keys[k].prio r).cq) _

theorem State.keyHeld_iff (s : State) (k : Fin 4) :
    s.keyHeld k = true ↔ s.station.running = true ∧ s.conf.keys[k].func ≠ .off ∧ s.ku.channels[k].pressed = true := by
  rw [State.keyHeld, Bool.and_eq_true, Bool.and_eq_true, bne_iff_ne, and_assoc]

/-- LONG_PRESS at the threshold of a channel whose threshold gives a request. -/
theorem execLongPress_eq {s : State} {k : Fin 4} (h : s.keyHeld k = true) (hlong : s.ku.channels[k].long = false)
    (hage : min 255 (s.ku.channels[k].age + 1) = s.conf.longPress) : exec (.longPress k) s = .next (s.holdKey k) :=
  congrArg _ (if_pos ⟨h, (KeyChannel.reaches_iff _ _).2 ⟨hlong, hage⟩⟩)

/-- REPEAT of a channel that counts its repeats, when one falls due. -/
theorem execRepeatDue_eq {s : State} {k : Fin 4} (h : s.keyHeld k = true)
    (hcounts : s.ku.channels[k].long = true ∨ s.conf.keys[k].func = .occupy)
    (hdue : s.conf.keys[k].interval ≤ s.ku.channels[k].repeats + 1) : exec (.repeatDue k) s = .next (s.holdKey k) :=
  congrArg _ (if_pos ⟨h, (KeyChannel.repeatsNext_iff _ _).2 ⟨hcounts, hdue⟩⟩)

/-- Settles O39: the rows are a held key's part of a mark, and a mark takes each channel once, by its sample. -/
theorem heldKeysGiveTheirRequests : Obligations.HeldKeysGiveTheirRequests := by
  refine ⟨?_, fun i m s hmark hm => ?_⟩
  · intro k s hrun ch c wrote hpressed
    have hheld (hf : c.func ≠ .off) : s.keyHeld k = true := (s.keyHeld_iff k).2 ⟨hrun, hf, hpressed⟩
    have hchannel := ch.hold_channel c s.conf.longPress
    have hoffer := ch.hold_offer c s.conf.longPress
    have hwrote {n : KeyChannel} {r : Request} (hn : (ch.hold c s.conf.longPress).1 = n)
        (hr : (ch.hold c s.conf.longPress).2 = some r) : s.holdKey k = wrote n r := by
      rw [State.holdKey_eq hr, hn]
    refine ⟨fun hf hlong hage => ?_, fun hf hlong hage => ?_, fun hf hlong hdue => ?_, fun hf hdue => ?_⟩
    · rw [execLongPress_eq (hheld (by simp [hf])) hlong hage]
      refine congrArg _ (hwrote ?_ ?_)
      · simp [hchannel, hf, hlong, hage]
      · simp [hoffer, hf, hlong, hage]
    · rw [execLongPress_eq (hheld (by simp [hf])) hlong hage]
      refine congrArg _ (hwrote ?_ ?_)
      · simp [hchannel, hf, hlong, hage]
      · simp [hoffer, hf, hlong, hage]
    · rw [execRepeatDue_eq (hheld (by simp [hf])) (.inl hlong) hdue]
      refine congrArg _ (hwrote ?_ ?_)
      · simp [hchannel, hlong, hdue]
      · simp [hoffer, hf, hlong, hdue]
    · rw [execRepeatDue_eq (hheld (by simp [hf])) (.inr hf) hdue]
      refine congrArg _ (hwrote ?_ ?_)
      · simp [hchannel, hf, hdue]
      · simp [hoffer, hf, hdue]
  · obtain ⟨t, hexec, hku⟩ := takesMark_channels hmark hm
    refine ⟨t, hexec, ?_⟩
    intro k ch c now offer counts
    refine ⟨fun hoff => ?_, fun hf => ⟨fun hp hn hprev => ?_, fun hp hn hprev => ?_, fun hp hn => ?_,
      fun hp hn => ?_⟩⟩
    · have hat := ch.atMark_off c s.conf.longPress (m.keys.getLsbD k) hoff
      exact ⟨(hku k).trans (congrArg Prod.fst hat), congrArg Prod.snd hat⟩
    · have hat := ch.atMark_press c s.conf.longPress (m.keys.getLsbD k) hf hp hn hprev
      exact ⟨(hku k).trans (congrArg Prod.fst hat), (congrArg Prod.snd hat).trans c.pressRequest_eq⟩
    · have hat := ch.atMark_release c s.conf.longPress (m.keys.getLsbD k) hf hp hn hprev
      refine ⟨(hku k).trans ((congrArg Prod.fst hat).trans ?_),
        (congrArg Prod.snd hat).trans (c.releaseRequest_eq ch.long)⟩
      simp [KeyChannel.release]
    · have hat := ch.atMark_idle c s.conf.longPress (m.keys.getLsbD k) hf hp hn
      exact ⟨(hku k).trans (congrArg Prod.fst hat), congrArg Prod.snd hat⟩
    · have hat := ch.atMark_hold c s.conf.longPress (m.keys.getLsbD k) hf hp hn
      refine ⟨(hku k).trans ((congrArg Prod.fst hat).trans ?_),
        (congrArg Prod.snd hat).trans (ch.hold_offer c s.conf.longPress)⟩
      rw [KeyChannel.hold_channel]
      rfl

end Sys2Proof.Machine

/-! The scene store: what a settled message does to each entry and each generation, with generations compared modulo
256 (R130 to R137). -/

namespace Sys2Proof.Machine

/-! ### Serial comparison of generations -/

/-- How far generation `g` is ahead of `e` modulo 256. -/
def generationsAhead (g e : Byte) : Nat := (g.toNat + 256 - e.toNat) % 256

theorem generationsAhead_eq (g e : Byte) : generationsAhead g e = (g - e).toNat := by
  rw [generationsAhead, BitVec.toNat_sub, Nat.add_comm g.toNat, Nat.sub_add_comm e.isLt.le]

theorem newer_iff (g e : Byte) : newer g e = true ↔ 1 ≤ generationsAhead g e ∧ generationsAhead g e ≤ 128 := by
  rw [newer, Bool.and_eq_true, decide_eq_true_iff, decide_eq_true_iff, generationsAhead_eq]

theorem generationsAhead_eq_zero_iff (g e : Byte) : generationsAhead g e = 0 ↔ g = e := by
  have hg := g.isLt
  have he := e.isLt
  rw [← BitVec.toNat_inj, generationsAhead]
  omega

/-- A statement's generation is equal or newer exactly when it is up to 128 ahead. -/
theorem eq_or_newer_iff (g e : Byte) : (g = e ∨ newer g e = true) ↔ generationsAhead g e ≤ 128 := by
  rw [newer_iff, ← generationsAhead_eq_zero_iff]
  omega

theorem SceneEntry.hear_of_ahead_le {e : SceneEntry} {g : Byte} (h : generationsAhead g e.gen ≤ 128)
    (level : Option Nat) : e.hear g level = ⟨level, g, false⟩ :=
  if_pos ((eq_or_newer_iff g e.gen).2 h)

theorem SceneEntry.hear_of_ahead_gt {e : SceneEntry} {g : Byte} (h : 128 < generationsAhead g e.gen)
    (level : Option Nat) : e.hear g level = { e with correction := true } :=
  if_neg fun hnew => h.not_ge ((eq_or_newer_iff g e.gen).1 hnew)

/-! ### The generation table -/

/-- The generation of a scene after one has been written. -/
theorem gens_set_get (v : Vector Byte 16) (s s2 : Fin 16) (g : Byte) :
    (v.set s g)[s2] = if s2 = s then g else v[s2] := by
  simp [Vector.getElem_set, Fin.ext_iff, eq_comm]

/-- A SCENE STATEMENT writes its scene's generation when it is newer, and no other (R135). -/
theorem Ss.hear_gens (ss : Ss) (c : Configuration) (s z : Fin 16) (g : Byte) (level : Option Nat) (s2 : Fin 16) :
    (ss.hear c s z g level).gens[s2] = if s2 = s ∧ newer g ss.gens[s] = true then g else ss.gens[s2] := by
  have hgens : (ss.hear c s z g level).gens = if newer g ss.gens[s] then ss.gens.set s g else ss.gens := rfl
  rw [hgens]
  cases newer g ss.gens[s] <;> simp [-Fin.getElem_fin, gens_set_get]

/-- A CAPTURE writes its scene's generation, whatever it was, and no other (R132). -/
theorem Ss.capture_gens (ss : Ss) (c : Configuration) (ze : Ze) (s : Fin 16) (g : Byte) (s2 : Fin 16) :
    (ss.capture c ze s g).gens[s2] = if s2 = s then g else ss.gens[s2] :=
  gens_set_get ss.gens s s2 g

/-! ### The scene table -/

/-- At a zone that is not tracked a SCENE STATEMENT leaves the table as it was. -/
theorem Ss.hear_entries_untracked {c : Configuration} {z : Fin 16} (h : c.tracks z = false) (ss : Ss) (s : Fin 16)
    (g : Byte) (level : Option Nat) : (ss.hear c s z g level).entries = ss.entries := by
  simp [Ss.hear, h]

/-- At a tracked zone a SCENE STATEMENT is heard by the entry it names, and by no other (R134). -/
theorem Ss.hear_entry_tracked {c : Configuration} {z : Fin 16} (h : c.tracks z = true) (ss : Ss) (s : Fin 16)
    (g : Byte) (level : Option Nat) (s2 z2 : Fin 16) :
    (ss.hear c s z g level).entry s2 z2 =
      if s2 = s ∧ z2 = z then (ss.entry s z).hear g level else ss.entry s2 z2 := by
  have hentries : (ss.hear c s z g level).entries = (ss.setEntry s z ((ss.entry s z).hear g level)).entries := by
    simp [Ss.hear, h]
  rw [← ss.setEntry_entry s z, Ss.entry, Ss.entry, hentries]

/-- A SCENE STATEMENT touches no entry but the one it names. -/
theorem Ss.hear_entry_of_ne (ss : Ss) (c : Configuration) {s z s2 z2 : Fin 16} (hne : (s2, z2) ≠ (s, z)) (g : Byte)
    (level : Option Nat) : (ss.hear c s z g level).entry s2 z2 = ss.entry s2 z2 := by
  cases h : c.tracks z with
  | true => rw [ss.hear_entry_tracked h, if_neg fun heq => hne (Prod.ext heq.1 heq.2)]
  | false => rw [Ss.entry, ss.hear_entries_untracked h, Ss.entry]

/-- A CAPTURE writes the tracked zones of its scene and no other entry (R132). -/
theorem Ss.capture_entry (ss : Ss) (c : Configuration) (ze : Ze) (s : Fin 16) (g : Byte) (s2 z : Fin 16) :
    (ss.capture c ze s g).entry s2 z =
      if s2 = s ∧ c.tracks z = true then ⟨some ze.zones[z].target, g, false⟩ else ss.entry s2 z := by
  unfold Ss.capture Ss.entry
  by_cases hs : s2 = s
  · subst hs
    simp
  · have hval : ¬(s : Nat) = s2 := fun h => hs (Fin.ext h.symm)
    simp [hs, hval]

/-- The messages of zones and of recalls leave the scene store as it was (R130). -/
theorem Ss.apply_eq_self {m : Msg} (hcapture : ∀ sc g, m ≠ .capture sc g)
    (hstatement : ∀ sc z g p l, m ≠ .sceneStatement sc z g p l) (ss : Ss) (c : Configuration) (ze : Ze) :
    ss.apply c ze m = ss := by
  cases m with
  | capture sc g => exact absurd rfl (hcapture sc g)
  | sceneStatement sc z g p l => exact absurd rfl (hstatement sc z g p l)
  | _ => rfl

/-! ### What the messages write -/

/-- Settles O35: the entry that a statement names hears it by its distance modulo 256, its scene's generation follows
a newer one, and a CAPTURE writes both outright. -/
theorem sceneStatementsAreComparedSerially : Obligations.SceneStatementsAreComparedSerially := by
  refine ⟨?_, ?_, fun ss c ze m hc hs => Ss.apply_eq_self hc hs ss c ze, fun ss sc z => ⟨Iff.rfl, fun _ => Iff.rfl⟩⟩
  · intro ss c ze sc z g present level t ahead
    have hentry (h : c.tracks z = true) :
        t.entry sc z = (ss.entry sc z).hear g (if present then some level else none) :=
      (ss.hear_entry_tracked h sc g _ sc z).trans (if_pos ⟨rfl, rfl⟩)
    have hgens (s2 : Fin 16) := ss.hear_gens c sc z g (if present then some level else none) s2
    refine ⟨fun h hle => (hentry h).trans (SceneEntry.hear_of_ahead_le hle _),
      fun h hgt => (hentry h).trans (SceneEntry.hear_of_ahead_gt hgt _),
      fun h => ss.hear_entries_untracked h sc g _, fun s2 z2 hne => ss.hear_entry_of_ne c hne g _,
      fun hlo hhi => (hgens sc).trans (if_pos ⟨rfl, (newer_iff _ _).2 ⟨hlo, hhi⟩⟩), fun hold => ?_,
      fun s2 hne => (hgens s2).trans (if_neg fun h => hne h.1)⟩
    refine (hgens sc).trans (if_neg fun hnew => ?_)
    obtain ⟨hlo, hhi⟩ := (newer_iff _ _).1 hnew.2
    rcases hold with hzero | hgt
    · exact Nat.ne_of_gt hlo hzero
    · exact hhi.not_gt hgt
  · intro ss c ze sc g t
    have hgens (s2 : Fin 16) := ss.capture_gens c ze sc g s2
    have hentry (s2 z : Fin 16) := ss.capture_entry c ze sc g s2 z
    refine ⟨(hgens sc).trans (if_pos rfl), fun s2 hne => (hgens s2).trans (if_neg hne),
      fun z => (hentry sc z).trans (by simp), fun z h => ?_,
      fun s2 z hne => (hentry s2 z).trans (if_neg fun h => hne h.1)⟩
    exact congrArg SceneEntry.level ((hentry sc z).trans (if_pos ⟨rfl, h⟩))

end Sys2Proof.Machine

/-! The dimming outputs: where a cell begins, how OUTPUT_PERIOD_START and PULSE_EDGE move the frame position, the
asserted interval of a channel within its period, and what its pin shows (R148, R151 to R153). -/

namespace Sys2Proof.Machine

/-! ### The frame position (R148) -/

/-- Cell `k` begins at k − 7/8 cells: an eighth of a cell is a whole number of units. -/
theorem eight_mul_cellPosition (k : Nat) : 8 * cellPosition k = 32736 * (8 * k - 7) := by
  rw [cellPosition, Config.unitsPerCell]
  omega

/-- A running station's position rises to one between it and the next cell start. -/
theorem State.reach_of_between {s : State} (hrun : s.station.running = true) {p : Nat}
    (h : s.ou.position ≤ p ∧ p ≤ cellPosition (s.ou.cells + 1)) : s.reach p = s.setOu { s.ou with position := p } := by
  rw [State.reach, if_pos hrun, Ou.reach, if_pos h]

/-- The position never moves back, nor past the next cell start. -/
theorem State.reach_of_not_between {s : State} {p : Nat}
    (h : ¬(s.ou.position ≤ p ∧ p ≤ cellPosition (s.ou.cells + 1))) : s.reach p = s := by
  rw [State.reach, Ou.reach, if_neg h]
  exact ite_self s

/-- OUTPUT_PERIOD_START reaches the start of the period it names (R151). -/
theorem exec_outputPeriodStart {s : State} {b : Nat} (hb : s.ou.basis = some b) (ch : Fin 4) (n : Nat) :
    exec (.outputPeriodStart ch n) s = .next (s.reach (n * s.conf.outputs[ch].period b)) := by
  show execOutputPeriodStart ch n s = _
  rw [execOutputPeriodStart, hb]

/-- PULSE_EDGE reaches an edge of its channel, and nothing else (R152). -/
theorem exec_pulseEdge {s : State} {b : Nat} (hb : s.ou.basis = some b) (ch : Fin 4) (pos : Nat) :
    exec (.pulseEdge ch pos) s =
      .next (if s.conf.outputs[ch].edgeAt b s.ou.latched[ch] pos = true then s.reach pos else s) := by
  show execPulseEdge ch pos s = _
  rw [execPulseEdge, hb]

namespace OutputSettings

/-! ### A channel's edges (R152) -/

theorem edgeAt_iff (o : OutputSettings) (b level pos : Nat) :
    o.edgeAt b level pos = true ↔ 0 < level ∧ level < 1023 ∧
      (pos % o.period b = o.offset b ∨
        pos % o.period b = (o.offset b + o.assertedLength b level) % o.period b ∨
        o.period b < o.offset b + o.assertedLength b level ∧ pos % o.period b = 0) := by
  simp only [edgeAt, Bool.and_eq_true, Bool.or_eq_true, decide_eq_true_eq, beq_iff_eq, and_assoc, or_assoc]
  rfl

/-! ### A channel's asserted interval (R152) -/

theorem period_pos {o : OutputSettings} (hdiv : o.divider = 1 ∨ o.divider = 2 ∨ o.divider = 4 ∨ o.divider = 8) {b : Nat}
    (hb : 0 < b) : 0 < o.period b := by
  refine Nat.mul_pos hb ?_
  rcases hdiv with h | h | h | h <;> rw [h] <;> decide

/-- The phase offset is at most three quarters of the period. -/
theorem offset_lt_period {o : OutputSettings} {b : Nat} (h : 0 < o.period b) : o.offset b < o.period b := by
  have hphase : o.offset b ≤ 3 * (o.period b / 4) := Nat.mul_le_mul_right _ (Nat.le_of_lt_succ o.phase.isLt)
  omega

/-- Where the level's share of the period is a whole number of units, it is the asserted length. -/
theorem assertedLength_eq {o : OutputSettings} {b level length : Nat} (h : length * 1023 = o.period b * level) :
    o.assertedLength b level = length := by
  rw [assertedLength, ← h]
  exact Nat.mul_div_cancel _ (by decide)

theorem assertedLength_zero (o : OutputSettings) (b : Nat) : o.assertedLength b 0 = 0 := assertedLength_eq (by simp)

theorem assertedLength_full (o : OutputSettings) (b : Nat) : o.assertedLength b 1023 = o.period b := assertedLength_eq rfl

theorem assertedLength_le_period (o : OutputSettings) (b : Nat) {level : Nat} (h : level ≤ 1023) :
    o.assertedLength b level ≤ o.period b :=
  Nat.div_le_of_le_mul (by rw [Nat.mul_comm]; exact Nat.mul_le_mul_right _ h)

/-- The asserted interval begins at the phase offset and goes on, past the period's end, at the period's start. -/
theorem asserted_iff {o : OutputSettings} {b level : Nat} (hp : 0 < o.period b) (hl : level ≤ 1023) (position : Nat) :
    o.asserted b level position = true ↔
      o.offset b ≤ position % o.period b ∧
          position % o.period b < o.offset b + o.assertedLength b level ∨
        position % o.period b + o.period b < o.offset b + o.assertedLength b level := by
  have hlength := o.assertedLength_le_period b hl
  have hx := Nat.mod_lt position hp
  rw [asserted]
  split
  case isTrue hinside =>
    rw [Bool.and_eq_true, decide_eq_true_eq, decide_eq_true_eq]
    omega
  case isFalse hwraps =>
    rw [Bool.or_eq_true, decide_eq_true_eq, decide_eq_true_eq]
    omega

/-- A channel at level 0 is asserted nowhere. -/
theorem asserted_zero {o : OutputSettings} {b : Nat} (hp : 0 < o.period b) (position : Nat) :
    o.asserted b 0 position = false := by
  rw [← Bool.not_eq_true, asserted_iff hp (Nat.zero_le _), assertedLength_zero]
  have hoffset := offset_lt_period hp
  omega

/-- A channel at the highest level is asserted everywhere. -/
theorem asserted_full {o : OutputSettings} {b : Nat} (hp : 0 < o.period b) (position : Nat) :
    o.asserted b 1023 position = true := by
  rw [asserted_iff hp le_rfl, assertedLength_full]
  have hx := Nat.mod_lt position hp
  omega

/-- A driving pin is low where condition and active-low agree (R153). -/
theorem pin_eq (o : OutputSettings) (asserted : Bool) :
    o.pin asserted = if asserted = o.activeLow then .low else .high := by
  rw [pin]
  by_cases h : asserted = o.activeLow <;> simp [h]

end OutputSettings

/-! ### The pins (R153) -/

theorem StationState.running_eq (st : StationState) : st.running = !st.unready := by cases st <;> rfl

theorem State.dimPin_of_unready {s : State} (h : s.station.unready = true) (ch : Fin 4) :
    s.dimPin ch = .highImpedance := by
  rw [State.dimPin, StationState.running_eq, h]
  rfl

theorem State.dimPin_of_ready {s : State} (h : s.station.unready = false) {b : Nat} (hb : s.ou.basis = some b)
    (ch : Fin 4) : s.dimPin ch =
      s.conf.outputs[ch].pin (s.conf.outputs[ch].asserted b s.ou.latched[ch] s.ou.position) := by
  rw [State.dimPin, StationState.running_eq, h, hb]
  rfl

/-- Settles O53: the commands reach period starts and edges, the interval is the level's share, and the pin shows it. -/
theorem pulseTrainsFollowTheFramePosition : Obligations.PulseTrainsFollowTheFramePosition := by
  refine ⟨fun k _ => eight_mul_cellPosition k, ?_, ?_, ?_, ?_⟩
  · intro ch n b s hrun hb start
    rw [exec_outputPeriodStart hb]
    exact ⟨fun hlo hhi => congrArg _ (State.reach_of_between hrun ⟨hlo, hhi⟩),
      fun hout => congrArg _ (State.reach_of_not_between hout)⟩
  · intro ch pos b s hrun hb o level period offset fin x edge
    have hedge : o.edgeAt b level pos = true ↔ edge := o.edgeAt_iff b level pos
    rw [exec_pulseEdge hb]
    refine ⟨fun hat hlo hhi => ?_, fun hnot => congrArg _ ?_⟩
    · rw [if_pos (hedge.2 hat), State.reach_of_between hrun ⟨hlo, hhi⟩]
    · rcases hnot with hoff | hout
      · exact if_neg (mt hedge.1 hoff)
      · rw [State.reach_of_not_between hout]
        exact ite_self s
  · intro o b level position length hb hl hdiv period offset x hlength
    have hp : 0 < o.period b := OutputSettings.period_pos hdiv hb
    refine ⟨?_, ?_, ?_⟩
    · rw [OutputSettings.asserted_iff hp hl, OutputSettings.assertedLength_eq hlength]
      rfl
    · rintro rfl
      exact OutputSettings.asserted_zero hp position
    · rintro rfl
      exact OutputSettings.asserted_full hp position
  · intro ch s
    refine ⟨fun h => State.dimPin_of_unready h ch, fun b h hb => ?_⟩
    rw [State.dimPin_of_ready h hb, OutputSettings.pin_eq]

end Sys2Proof.Machine

/-! The eight requests at the companion port: the outcomes of the tests, each once, and the statements that follow from
them (R182, R183, R190 to R192). -/

namespace Sys2Proof.Machine

/-! ### The tests of a request -/

/-- The command that is a request of a type, with its tag and body. -/
def RequestType.command (t : RequestType) (tag : Byte) (body : List Byte) : Instr :=
  match t with
  | .configure => .configure tag body
  | .send => .send tag body
  | .queryStation => .queryStation tag body
  | .queryZone => .queryZone tag body
  | .queryMembers => .queryMembers tag body
  | .queryScene => .queryScene tag body
  | .subscribe => .subscribe tag body
  | .restart => .restart tag body

/-- The eight requests as commands are the commands of the eight types. -/
theorem command_of_mem {tag : Byte} {body : List Byte} {p : RequestType × Instr} (hp : p ∈ requestCommands tag body) :
    p.2 = p.1.command tag body := by
  simp only [requestCommands, List.mem_cons, List.not_mem_nil, or_false] at hp
  obtain rfl | rfl | rfl | rfl | rfl | rfl | rfl | rfl := hp <;> rfl

/-- Each of the eight commands is its type's tests and action. -/
theorem exec_command (t : RequestType) (tag : Byte) (body : List Byte) (s : State) :
    exec (t.command tag body) s = .next (s.takeRequest t tag body (t.action tag body)) := by
  cases t <;> rfl

theorem StationState.ne_reset_of_running {st : StationState} (h : st.running = true) : st ≠ .reset := by
  rintro rfl
  cases h

section Tests

variable {s : State} {t : RequestType} {tag : Byte} {body : List Byte} (hready : s.station ≠ .reset)
include hready

/-- A request at a full reply slot is turned away (R182). -/
theorem State.takeRequest_full (hslot : s.cp.slot ≠ none) (act : State → State) :
    s.takeRequest t tag body act = s.setCp { s.cp with overrun := true } := by
  rw [State.takeRequest, if_neg hready, if_pos (Option.isSome_iff_ne_none.2 hslot)]

variable (hslot : s.cp.slot = none)
include hslot

/-- With the slot empty, the tests of R182 run in their order. -/
theorem State.takeRequest_tests (act : State → State) :
    s.takeRequest t tag body act =
      if t.lengthOk body then
        ((t.stateFault s.station).or ((t.fieldFault body).map .badField)).elim (act s) (s.refuse tag)
      else s.refuse tag .badLength := by
  rw [State.takeRequest, if_neg hready, hslot]
  cases t.stateFault s.station <;> cases t.fieldFault body <;> rfl

theorem exec_badLength (hlen : t.lengthOk body = false) :
    exec (t.command tag body) s = .next (s.setCp (s.cp.refuse tag .badLength)) := by
  rw [exec_command, State.takeRequest_tests hready hslot, hlen]
  rfl

variable (hlen : t.lengthOk body = true)
include hlen

theorem exec_stateFault {r : Reason} (hstate : t.stateFault s.station = some r) :
    exec (t.command tag body) s = .next (s.setCp (s.cp.refuse tag r)) := by
  rw [exec_command, State.takeRequest_tests hready hslot, if_pos hlen, hstate]
  rfl

variable (hstate : t.stateFault s.station = none)
include hstate

theorem exec_badField {i : Nat} (hfield : t.fieldFault body = some i) :
    exec (t.command tag body) s = .next (s.setCp (s.cp.refuse tag (.badField i))) := by
  rw [exec_command, State.takeRequest_tests hready hslot, if_pos hlen, hstate, hfield]
  rfl

/-- A request that passes every test has its action. -/
theorem exec_action (hfield : t.fieldFault body = none) :
    exec (t.command tag body) s = .next (t.action tag body s) := by
  rw [exec_command, State.takeRequest_tests hready hslot, if_pos hlen, hstate, hfield]
  rfl

end Tests

/-- Settles O11: no test and no action comes before that of the slot. -/
theorem fullSlotTurnsRequestsAway : Obligations.FullSlotTurnsRequestsAway := by
  intro tag body s hready hslot p hp
  rw [command_of_mem hp, exec_command, State.takeRequest_full hready hslot]

/-! ### Lengths and states -/

/-- A SEND has its priority, its kind, and the data of that kind. -/
theorem sendLengthOk_cons_cons (p k : Byte) (rest : List Byte) :
    sendLengthOk (p :: k :: rest) = true ↔ 6 < k.toNat ∨ rest.length + 2 = sendLength k.toNat := by
  simp [sendLengthOk]

/-- The lengths of the seven kinds, as R182 lists them. -/
theorem sendLength_table {k : Nat} (h : k ≤ 6) : [5, 4, 3, 3, 3, 3, 5][k]? = some (sendLength k) := by
  interval_cases k <;> rfl

theorem sendLengthOk_iff (body : List Byte) : sendLengthOk body = true ↔ rightLength .send body := by
  rcases body with _ | ⟨p, _ | ⟨k, rest⟩⟩
  · simp [sendLengthOk, rightLength]
  · simp [sendLengthOk, rightLength]
  · rw [sendLengthOk_cons_cons]
    rcases Nat.lt_or_ge 6 k.toNat with hk | hk
    · exact iff_of_true (.inl hk) ⟨p, k, rest, rfl, .inl hk⟩
    · have htable := sendLength_table hk
      constructor
      · rintro (h | h)
        · omega
        · exact ⟨p, k, rest, rfl, .inr (htable.trans (congrArg some h.symm))⟩
      · rintro ⟨p', k', rest', he, h⟩
        obtain ⟨rfl, rfl, rfl⟩ : p = p' ∧ k = k' ∧ rest = rest' := by simpa using he
        exact h.imp_right fun h => (Option.some.inj (htable.symm.trans h)).symm

/-- Test 2 is the table of lengths of R182. -/
theorem RequestType.lengthOk_iff (t : RequestType) (body : List Byte) :
    t.lengthOk body = true ↔ rightLength t body := by
  cases t with
  | send => exact sendLengthOk_iff body
  | _ => exact beq_iff_eq

theorem RequestType.stateFault_loading {t : RequestType} (hquery : t ≠ .queryStation) (hsub : t ≠ .subscribe) :
    t.stateFault .loading = some .loading := by
  cases t with
  | queryStation => exact absurd rfl hquery
  | subscribe => exact absurd rfl hsub
  | _ => rfl

theorem RequestType.stateFault_unconfigured {t : RequestType} (hconf : t ≠ .configure) (hquery : t ≠ .queryStation)
    (hsub : t ≠ .subscribe) : t.stateFault .unconfigured = some .notConfigured := by
  cases t with
  | configure => exact absurd rfl hconf
  | queryStation => exact absurd rfl hquery
  | subscribe => exact absurd rfl hsub
  | _ => rfl

theorem RequestType.stateFault_configure {st : StationState} (h : st.running = true) :
    RequestType.stateFault .configure st = some .alreadyConfigured := by
  cases st with
  | reset | loading | unconfigured => cases h
  | _ => rfl

/-- The requests that reach test 4: those that any state answers, CONFIGURE in UNCONFIGURED, the others in a running
station (R183). -/
theorem RequestType.stateFault_none {t : RequestType} {st : StationState} (h : t = .queryStation ∨ t = .subscribe ∨
    t = .configure ∧ st = .unconfigured ∨ t ≠ .configure ∧ st.running = true) : t.stateFault st = none := by
  obtain rfl | rfl | ⟨rfl, rfl⟩ | ⟨ht, hrun⟩ := h
  · rfl
  · rfl
  · rfl
  · exact RequestType.stateFault_of_running ht hrun

/-- Settles O12: the tests of `State.takeRequest_tests`, with the lengths of R182 and the states of R183. -/
theorem requestsAreTestedInOrder : Obligations.RequestsAreTestedInOrder := by
  intro tag body s hready hslot p hp
  rw [command_of_mem hp, ← RequestType.lengthOk_iff]
  refine ⟨fun hlen => ?_, fun hlen => ⟨fun hst hquery hsub => ?_, fun hst hconf hquery hsub => ?_, fun hrun hconf => ?_,
    fun i hfield hany => ?_⟩⟩
  · exact exec_badLength hready hslot (Bool.eq_false_of_not_eq_true hlen)
  · exact exec_stateFault hready hslot hlen (hst ▸ RequestType.stateFault_loading hquery hsub)
  · exact exec_stateFault hready hslot hlen (hst ▸ RequestType.stateFault_unconfigured hconf hquery hsub)
  · exact exec_stateFault hready hslot hlen (hconf ▸ RequestType.stateFault_configure hrun)
  · exact exec_badField hready hslot hlen (RequestType.stateFault_none hany) hfield

/-! ### SUBSCRIBE and RESTART -/

/-- A class set is read back from the byte that carries it. -/
theorem setWidth_setWidth_of_lt {b : Byte} (h : b.toNat < 32) : (b.setWidth 5).setWidth 8 = b := by
  apply BitVec.eq_of_toNat_eq
  rw [BitVec.toNat_setWidth, BitVec.toNat_setWidth]
  omega

/-- Settles O17: the one field test of SUBSCRIBE is that no bit stands outside the five classes. -/
theorem subscribeReplacesTheSet : Obligations.SubscribeReplacesTheSet := by
  intro tag b s hready hslot
  refine ⟨fun h => ?_, fun h => exec_badField (t := .subscribe) hready hslot rfl rfl (if_pos h)⟩
  have hrange : ¬31 < b.toNat := by omega
  refine (exec_action (t := .subscribe) (body := [b]) hready hslot rfl rfl (if_neg hrange)).trans ?_
  show Host.Outcome.next (s.setCp (Cp.accept { s.cp with subs := b.setWidth 5 } tag [(b.setWidth 5).setWidth 8])) = _
  rw [setWidth_setWidth_of_lt h]

/-- Settles O18: RESTART passes every test in a running station, and its action is the ACCEPT and the indication. -/
theorem restartIsPendingUntilItsAcceptIsSent : Obligations.RestartIsPendingUntilItsAcceptIsSent := by
  intro tag s hrun hslot
  exact exec_action (t := .restart) (StationState.ne_reset_of_running hrun) hslot rfl
    (RequestType.stateFault_of_running (by decide) hrun) rfl

end Sys2Proof.Machine

/-! Bytes on CRXD: what the receive assembler makes of each, a whole frame taken byte by byte, and the frames it drops
(R179 to R182, R212). -/

namespace Sys2Proof.Machine

/-! ### One byte -/

@[simp] theorem State.setAssembler_station (s : State) (a : Assembler) : (s.setAssembler a).station = s.station := rfl
@[simp] theorem State.setAssembler_setAssembler (s : State) (a b : Assembler) :
    (s.setAssembler a).setAssembler b = s.setAssembler b := rfl

/-- Out of RESET a byte goes to the assembler (R178). -/
theorem exec_byteReceived {s : State} (h : s.station ≠ .reset) (b : Byte) (stop : Bool) :
    exec (.byteReceived b stop) s = .next (s.takeByte b stop) :=
  congrArg Host.Outcome.next (if_neg h)

/-- In HUNT the start byte begins a frame. -/
theorem State.takeByte_start {s : State} (h : s.cp.assembler.phase = .hunt) :
    s.takeByte Config.startByte true = s.setAssembler { s.cp.assembler with phase := .length } := by
  rw [State.takeByte, h]
  rfl

/-- In LENGTH a length from 2 to 50 begins the sum. -/
theorem State.takeByte_length {s : State} (h : s.cp.assembler.phase = .length) {b : Byte}
    (hb : 2 ≤ b.toNat ∧ b.toNat ≤ 50) : s.takeByte b true = s.setAssembler ⟨.collect, b.toNat, [], b⟩ := by
  rw [State.takeByte, h]
  exact if_pos ⟨rfl, hb⟩

theorem State.takeByte_badLength {s : State} (h : s.cp.assembler.phase = .length) {b : Byte} {stop : Bool}
    (hb : stop = false ∨ b.toNat < 2 ∨ 50 < b.toNat) : s.takeByte b stop = s.linkFault := by
  rw [State.takeByte, h]
  refine if_neg fun ⟨hstop, hlo, hhi⟩ => ?_
  rcases hb with rfl | hb
  · cases hstop
  · omega

/-- In COLLECT a byte is stored and added to the sum until the length is reached. -/
theorem State.takeByte_store (s : State) {need : Nat} {stored : List Byte} (h : stored.length < need) (sum b : Byte) :
    (s.setAssembler ⟨.collect, need, stored, sum⟩).takeByte b true =
      s.setAssembler ⟨.collect, need, stored ++ [b], sum + b⟩ := if_pos h

/-- In COLLECT the byte after those is the check: with it the sum is 0, and the frame is taken. -/
theorem State.takeByte_check (s : State) {need : Nat} {stored : List Byte} (h : need ≤ stored.length) {sum b : Byte}
    (hb : sum + b = 0#8) :
    (s.setAssembler ⟨.collect, need, stored, sum⟩).takeByte b true = (s.setAssembler .hunting).takeFrame stored :=
  (if_neg (Nat.not_lt.2 h)).trans (if_pos hb)

theorem State.takeByte_badCheck {s : State} (h : s.cp.assembler.phase = .collect) {b : Byte} {stop : Bool}
    (hb : stop = false ∨ s.cp.assembler.need ≤ s.cp.assembler.stored.length ∧ s.cp.assembler.sum + b ≠ 0#8) :
    s.takeByte b stop = s.linkFault := by
  rw [State.takeByte, h]
  rcases hb with rfl | ⟨hlen, hsum⟩
  · rfl
  · cases stop with
    | false => rfl
    | true => exact (if_neg (Nat.not_lt.2 hlen)).trans (if_neg hsum)

/-! ### A whole frame -/

/-- Bytes received one after another, each with its stop bit. -/
def received (l : List Byte) : List Instr := l.map fun b => .byteReceived b true

theorem execAll_received_cons {s : State} (h : s.station ≠ .reset) (b : Byte) (l : List Byte) :
    execAll (received (b :: l)) s = execAll (received l) (s.takeByte b true) := by
  rw [received, List.map_cons, execAll, exec_byteReceived h]
  rfl

/-- The bytes of type, tag and body are stored and summed one by one, up to the length. -/
theorem execAll_received_collect {s : State} (h : s.station ≠ .reset) {need : Nat} (rest l : List Byte) :
    ∀ (stored : List Byte) (sum : Byte), stored.length + l.length ≤ need →
      execAll (received (l ++ rest)) (s.setAssembler ⟨.collect, need, stored, sum⟩) =
        execAll (received rest) (s.setAssembler ⟨.collect, need, stored ++ l, l.foldl (· + ·) sum⟩) := by
  induction l with
  | nil =>
    intro stored sum _
    rw [List.append_nil]
    rfl
  | cons b l ih =>
    intro stored sum hlen
    rw [List.length_cons] at hlen
    have hstore : stored.length < need := by omega
    have hready : (s.setAssembler ⟨.collect, need, stored, sum⟩).station ≠ .reset := h
    rw [List.cons_append, execAll_received_cons hready, State.takeByte_store s hstore,
      ih _ _ (by rw [List.length_append, List.length_singleton]; omega), List.append_assoc]
    rfl

/-- The check byte of a frame brings its sum to 0 (R212). -/
theorem foldl_add_frameCheck (l : List Byte) : l.foldl (· + ·) 0#8 + frameCheck l = 0#8 :=
  add_sub_cancel _ _

/-- A frame received from HUNT is taken whole, with the assembler in HUNT again (R179, R212). -/
theorem execAll_received_frame {s : State} (h : s.station ≠ .reset) (hhunt : s.cp.assembler.phase = .hunt)
    (type tag : Byte) {body : List Byte} (hbody : body.length ≤ 48) :
    execAll (received (frameBytes type tag body)) s =
      .next ((s.setAssembler .hunting).takeFrame (type :: tag :: body)) := by
  have hlength : (BitVec.ofNat 8 (body.length + 2)).toNat = body.length + 2 := by
    rw [BitVec.toNat_ofNat]
    omega
  have hzero := foldl_add_frameCheck (BitVec.ofNat 8 (body.length + 2) :: type :: tag :: body)
  rw [List.foldl_cons, BitVec.zero_add] at hzero
  rw [frameBytes]
  generalize BitVec.ofNat 8 (body.length + 2) = length at hlength hzero ⊢
  generalize frameCheck (length :: type :: tag :: body) = check at hzero ⊢
  have hready (a : Assembler) : (s.setAssembler a).station ≠ .reset := h
  calc execAll (received (Config.startByte :: length :: (type :: tag :: body ++ [check]))) s
    _ = execAll (received (length :: (type :: tag :: body ++ [check])))
          (s.setAssembler { s.cp.assembler with phase := .length }) := by
      rw [execAll_received_cons h, State.takeByte_start hhunt]
    _ = execAll (received (type :: tag :: body ++ [check]))
          (s.setAssembler ⟨.collect, body.length + 2, [], length⟩) := by
      rw [execAll_received_cons (hready _), State.takeByte_length rfl (by omega), State.setAssembler_setAssembler,
        hlength]
    _ = execAll (received [check]) (s.setAssembler ⟨.collect, body.length + 2, type :: tag :: body,
          (type :: tag :: body).foldl (· + ·) length⟩) :=
      execAll_received_collect h [check] (type :: tag :: body) [] length (by simp)
    _ = .next ((s.setAssembler .hunting).takeFrame (type :: tag :: body)) := by
      rw [execAll_received_cons (hready _), State.takeByte_check s (by simp) hzero]
      rfl

/-- A frame whose type names a request is that request (R182, R212). -/
theorem State.takeFrame_request {type : Byte} {t : RequestType} (htype : RequestType.ofByte type = some t) (tag : Byte)
    (body : List Byte) (s : State) : .next (s.takeFrame (type :: tag :: body)) = exec (t.command tag body) s := by
  rw [exec_command, State.takeFrame, List.getD_cons_zero, htype]
  rfl

theorem RequestType.ofByte_unknown {type : Byte} (h : type = 0 ∨ 8 < type.toNat) :
    RequestType.ofByte type = none := by
  rcases h with rfl | h
  · rfl
  · unfold RequestType.ofByte
    split
    case h_9 => rfl
    all_goals omega

/-- A frame of another type is UNKNOWN TYPE (R182). -/
theorem State.takeFrame_unknown {type : Byte} (htype : RequestType.ofByte type = none) (tag : Byte) (body : List Byte)
    (s : State) : s.takeFrame (type :: tag :: body) =
      if s.cp.slot.isSome then s.setCp { s.cp with overrun := true } else s.refuse tag .unknownType := by
  rw [State.takeFrame, List.getD_cons_zero, htype]
  rfl

/-- Settles O9: the frame is taken whole (`execAll_received_frame`), as the request its type names. -/
theorem receivedFrameIsItsRequest : Obligations.ReceivedFrameIsItsRequest := by
  intro type tag body s hready hhunt hbody h sent
  have hsent : sent = .next (h.takeFrame (type :: tag :: body)) := execAll_received_frame hready hhunt type tag hbody
  have hnamed (t : RequestType) (htype : RequestType.ofByte type = some t) : sent = exec (t.command tag body) h :=
    hsent.trans (State.takeFrame_request htype tag body h)
  refine ⟨fun e => hnamed .configure (e ▸ rfl), fun e => hnamed .send (e ▸ rfl),
    fun e => hnamed .queryStation (e ▸ rfl), fun e => hnamed .queryZone (e ▸ rfl),
    fun e => hnamed .queryMembers (e ▸ rfl), fun e => hnamed .queryScene (e ▸ rfl),
    fun e => hnamed .subscribe (e ▸ rfl), fun e => hnamed .restart (e ▸ rfl), fun htype => ?_⟩
  rw [hsent, State.takeFrame_unknown (RequestType.ofByte_unknown htype)]
  refine ⟨fun hslot => ?_, fun hslot => ?_⟩
  · rw [if_neg (by simp [h, hslot])]
    rfl
  · rw [if_pos (show h.cp.slot.isSome = true from Option.isSome_iff_ne_none.2 hslot)]

/-! ### Frames that are dropped -/

theorem State.linkFault_empty {s : State} (hslot : s.cp.slot = none) :
    s.linkFault = s.setCp (Cp.reply { s.cp with assembler := .hunting } 0x83 0 []) :=
  congrArg s.setCp (if_neg (show ¬s.cp.slot.isSome = true by simp [hslot]))

theorem State.linkFault_full {s : State} (hslot : s.cp.slot ≠ none) :
    s.linkFault = s.setCp { s.cp with assembler := .hunting, overrun := true } :=
  congrArg s.setCp (if_pos (Option.isSome_iff_ne_none.2 hslot))

/-- Settles O10: each bad byte ends in `State.linkFault`, and a gap in HUNT without it. -/
theorem badFramesAreDropped : Obligations.BadFramesAreDropped := by
  refine ⟨fun b stop s hready hbad => ?_, fun s hphase => congrArg Host.Outcome.next (if_neg hphase),
    fun s hphase => congrArg Host.Outcome.next (if_pos hphase)⟩
  have hfault : s.takeByte b stop = s.linkFault := by
    rcases hbad with ⟨hphase, hb⟩ | ⟨hphase, hb⟩
    · exact State.takeByte_badLength hphase hb
    · exact State.takeByte_badCheck hphase hb
  rw [exec_byteReceived hready, hfault]
  exact ⟨fun hslot => congrArg Host.Outcome.next (State.linkFault_empty hslot),
    fun hslot => congrArg Host.Outcome.next (State.linkFault_full hslot)⟩

end Sys2Proof.Machine

/-! The body of a SEND: what it lays out is read back, and where each fault in it stands (R182, R185, R210, R212). -/

namespace Sys2Proof.Machine

/-! ### Bytes as runs of bits -/

theorem natOfBits_append (l m : List Bool) : natOfBits (l ++ m) = natOfBits l * 2 ^ m.length + natOfBits m := by
  rw [natOfBits, List.foldl_append, natOfBits_foldl]
  rfl

@[simp] theorem bitsOfBytes_cons (b : Byte) (l : List Byte) : bitsOfBytes (b :: l) = bitsOfByte b ++ bitsOfBytes l :=
  List.flatMap_cons

@[simp] theorem bitsOfBytes_length (l : List Byte) : (bitsOfBytes l).length = 8 * l.length := by
  induction l with
  | nil => rfl
  | cons b l ih =>
    rw [bitsOfBytes_cons, List.length_append, ih, bitsOfByte_length, List.length_cons]
    omega

@[simp] theorem bytesOfBits_length (n : Nat) (l : List Bool) : (bytesOfBits n l).length = n := by
  induction n generalizing l with
  | zero => rfl
  | succ n ih => rw [bytesOfBits, List.length_cons, ih]

/-- The first eight bits of a run are those of the byte they make. -/
theorem bitsOfByte_byteOfBits {l : List Bool} (h : 8 ≤ l.length) : bitsOfByte (byteOfBits l) = l.take 8 := by
  have hlen : (l.take 8).length = 8 := List.length_take_of_le h
  have hlt := natOfBits_lt (l.take 8)
  have hread := bitsOfNat_natOfBits (l.take 8)
  rw [hlen] at hlt hread
  rw [bitsOfByte, byteOfBits, BitVec.toNat_ofNat, Nat.mod_eq_of_lt hlt, hread]

/-- A run of bits is read back from its bytes. -/
theorem bitsOfBytes_bytesOfBits {n : Nat} {l : List Bool} (h : 8 * n ≤ l.length) :
    bitsOfBytes (bytesOfBits n l) = l.take (8 * n) := by
  induction n generalizing l with
  | zero => rfl
  | succ n ih =>
    rw [bytesOfBits, bitsOfBytes_cons, bitsOfByte_byteOfBits (by omega), ih (by rw [List.length_drop]; omega),
      Nat.mul_succ, Nat.add_comm, List.take_add]

/-- A field of a run, as a part of the number that the run carries. -/
theorem fieldOf_eq {l : List Bool} {a b : Nat} (ha : 1 ≤ a) (hab : a ≤ b) (hb : b ≤ l.length) :
    fieldOf l a b = natOfBits l / 2 ^ (l.length - b) % 2 ^ (b + 1 - a) := by
  have hfield : ((l.drop (a - 1)).take (b + 1 - a)).length = b + 1 - a := by
    rw [List.length_take, List.length_drop]
    omega
  have hsplit : l = (l.take (a - 1) ++ (l.drop (a - 1)).take (b + 1 - a)) ++ l.drop b := by
    rw [← List.take_add, (by omega : a - 1 + (b + 1 - a) = b), List.take_append_drop]
  have hlow : natOfBits (l.drop b) < 2 ^ (l.length - b) := by simpa using natOfBits_lt (l.drop b)
  have hhigh := natOfBits_lt ((l.drop (a - 1)).take (b + 1 - a))
  rw [hfield] at hhigh
  calc fieldOf l a b = natOfBits ((l.drop (a - 1)).take (b + 1 - a)) := rfl
    _ = natOfBits (l.take (a - 1) ++ (l.drop (a - 1)).take (b + 1 - a)) % 2 ^ (b + 1 - a) := by
      rw [natOfBits_append, hfield, Nat.mul_add_mod_self_right, Nat.mod_eq_of_lt hhigh]
    _ = natOfBits l / 2 ^ (l.length - b) % 2 ^ (b + 1 - a) := by
      conv_rhs => rw [hsplit, natOfBits_append, ← hsplit, List.length_drop, Nat.mul_comm,
        Nat.mul_add_div (Nat.two_pow_pos _), Nat.div_eq_of_lt hlow, Nat.add_zero]

theorem natOfBits_bitsOfBytes_cons (b : Byte) (l : List Byte) :
    natOfBits (bitsOfBytes (b :: l)) = b.toNat * 2 ^ (8 * l.length) + natOfBits (bitsOfBytes l) := by
  rw [bitsOfBytes_cons, natOfBits_append, bitsOfBytes_length, bitsOfByte, natOfBits_bitsOfNat,
    Nat.mod_eq_of_lt b.isLt]

/-! ### The body of a request in range -/

/-- The data run that a SEND carries: that of its message, a CAPTURE's without the generation (R182, R212). -/
def Request.sendData (r : Request) : List Bool :=
  let m := r.toMsg fun _ => 0
  m.bits.take (8 * (sendLength m.kind - 2))

/-- The kind of a request (R56). -/
abbrev Request.kind (r : Request) : Nat := (r.toMsg fun _ => 0).kind

theorem Request.kind_le (r : Request) : r.kind ≤ 6 := by
  cases r <;> simp [Request.kind, Request.toMsg, Msg.kind]

theorem Request.kind_byte (r : Request) : (BitVec.ofNat 8 r.kind).toNat = r.kind :=
  Nat.mod_eq_of_lt (r.kind_le.trans_lt (by decide))

theorem Request.sendBody_eq (prio : Nat) (r : Request) : r.sendBody prio = BitVec.ofNat 8 prio ::
    BitVec.ofNat 8 r.kind :: bytesOfBits (sendLength r.kind - 2) (r.toMsg fun _ => 0).bits := rfl

theorem two_lt_sendLength {k : Nat} (h : k ≤ 6) : 2 < sendLength k ∧ sendLength k - 2 ≤ dataLength k := by
  interval_cases k <;> decide

/-- The data bytes of a SEND carry its data run. -/
theorem Request.bits_sendBody (r : Request) :
    bitsOfBytes (bytesOfBits (sendLength r.kind - 2) (r.toMsg fun _ => 0).bits) = r.sendData :=
  bitsOfBytes_bytesOfBits (by
    rw [Msg.bits_length]
    exact Nat.mul_le_mul_left 8 (two_lt_sendLength r.kind_le).2)

/-- The data run of any request but a CAPTURE is the whole of its message's. -/
theorem Request.sendData_eq {r : Request} (h : r.kind ≠ 5) : r.sendData = (r.toMsg fun _ => 0).bits :=
  List.take_of_length_le (by rw [Msg.bits_length, sendLength, if_neg h]; omega)

theorem Request.sendData_capture (sc : Fin 16) :
    (Request.capture sc).sendData = bitsOfNat 4 sc ++ bitsOfNat 4 0 := by
  show ((bitsOfNat 4 sc ++ bitsOfNat 4 0) ++ bitsOfByte 0#8).take 8 = _
  exact List.take_left' (by simp)

/-- The data run of a SEND is read back as the request. -/
theorem readMsg_sendData {r : Request} (h : r.InRange) :
    (readMsg r.kind r.sendData).bind Msg.toRequest = some r := by
  cases r with
  | capture sc =>
    rw [Request.sendData_capture]
    exact congrArg (fun z => some (Request.capture z)) (nibbleOf_bitsOfNat_append sc _)
  | _ =>
    rw [Request.sendData_eq (by simp [Request.kind, Request.toMsg, Msg.kind]), readMsg_bits h]
    rfl

theorem spareSet_sendData (r : Request) : spareSet r.kind r.sendData = false := by
  cases r with
  | capture sc =>
    rw [Request.sendData_capture]
    simp [spareSet, spareBits, Request.kind, Request.toMsg, Msg.kind, fieldOf_append]
  | _ =>
    rw [Request.sendData_eq (by simp [Request.kind, Request.toMsg, Msg.kind])]
    exact spareSet_bits _

/-- A STEP in range carries neither 0 nor −512. -/
theorem Request.step_carried {r : Request} (h : r.InRange) (hk : r.kind = 1) :
    fieldOf r.sendData 5 14 ≠ 0 ∧ fieldOf r.sendData 5 14 ≠ 512 := by
  cases r with
  | step z d =>
    obtain ⟨hlo, hhi, hne⟩ := h
    have hread : fieldOf (Request.step z d).sendData 5 14 = carried10 d % 1024 := by
      rw [Request.sendData_eq (by simp [Request.kind, Request.toMsg, Msg.kind])]
      simp [Request.toMsg, Msg.bits, fieldOf_append]
    have hd := signed10_carried10 ⟨hlo, hhi⟩
    rw [hread]
    constructor <;> intro he <;> rw [he] at hd <;> subst hd
    · exact hne rfl
    · exact absurd hlo (by decide)
  | _ => cases hk

/-! ### Faults -/

/-- The four field tests of a SEND, in the order of the bytes they judge. -/
theorem sendFault_cons_cons (p k : Byte) (data : List Byte) : sendFault (p :: k :: data) =
    if 5 < p.toNat then some 0
    else if 6 < k.toNat then some 1
    else if k.toNat = 1 ∧ (fieldOf (bitsOfBytes data) 5 14 = 0 ∨ fieldOf (bitsOfBytes data) 5 14 = 512) then some 2
    else if spareSet k.toNat (bitsOfBytes data) then some (2 + ((spareBits k.toNat).1 - 1) / 8)
    else none := rfl

/-- A body whose priority and kind are in range and whose value is no fault is refused for a spare bit, at the byte that
holds it. -/
theorem sendFault_spare {p k : Byte} {data : List Byte} (hp : p.toNat ≤ 5) (hk : k.toNat ≤ 6)
    (hstep : k.toNat = 1 → fieldOf (bitsOfBytes data) 5 14 ≠ 0 ∧ fieldOf (bitsOfBytes data) 5 14 ≠ 512)
    (hspare : fieldOf (bitsOfBytes data) (spareBits k.toNat).1 (spareBits k.toNat).2 ≠ 0) :
    sendFault (p :: k :: data) = some (2 + ((spareBits k.toNat).1 - 1) / 8) := by
  rw [sendFault_cons_cons, if_neg (Nat.not_lt.2 hp), if_neg (Nat.not_lt.2 hk),
    if_neg fun h => h.2.elim (hstep h.1).1 (hstep h.1).2,
    if_pos (show spareSet _ _ = true from bne_iff_ne.2 hspare)]

/-- The body of a request in range has no fault. -/
theorem sendFault_sendBody {prio : Nat} {r : Request} (hp : prio ≤ 5) (h : r.InRange) :
    sendFault (r.sendBody prio) = none := by
  have hprio : (BitVec.ofNat 8 prio).toNat = prio := Nat.mod_eq_of_lt (by omega)
  rw [Request.sendBody_eq, sendFault_cons_cons, Request.bits_sendBody, hprio, r.kind_byte, if_neg (Nat.not_lt.2 hp),
    if_neg (Nat.not_lt.2 r.kind_le), if_neg, spareSet_sendData]
  · rfl
  · rintro ⟨hk, h0 | h512⟩
    · exact (Request.step_carried h hk).1 h0
    · exact (Request.step_carried h hk).2 h512

/-- The body of a request has the length of its kind. -/
theorem sendLengthOk_sendBody (prio : Nat) (r : Request) : sendLengthOk (r.sendBody prio) = true := by
  have hlong := (two_lt_sendLength r.kind_le).1
  rw [Request.sendBody_eq, sendLengthOk_cons_cons, r.kind_byte, bytesOfBits_length]
  omega

theorem sendRequest_cons_cons (p k : Byte) (data : List Byte) :
    sendRequest (p :: k :: data) = (readMsg k.toNat (bitsOfBytes data)).bind Msg.toRequest := rfl

theorem sendRequest_sendBody (prio : Nat) {r : Request} (h : r.InRange) :
    sendRequest (r.sendBody prio) = some r := by
  rw [Request.sendBody_eq, sendRequest_cons_cons, Request.bits_sendBody, r.kind_byte, readMsg_sendData h]

/-- A running station with an empty slot refuses a SEND of a right length at its fault. -/
theorem exec_send_badField {s : State} (hrun : s.station.running = true) (hslot : s.cp.slot = none) {tag : Byte}
    {body : List Byte} {i : Nat} (hlen : sendLengthOk body = true) (hfault : sendFault body = some i) :
    exec (.send tag body) s = .next (s.setCp (s.cp.refuse tag (.badField i))) := by
  exact exec_badField (t := .send) (StationState.ne_reset_of_running hrun) hslot hlen
    (RequestType.stateFault_of_running (by decide) hrun) hfault

/-- The step that the two data bytes of a STEP carry. -/
theorem fieldOf_step (a b : Byte) :
    fieldOf (bitsOfBytes [a, b]) 5 14 = 64 * (a.toNat % 16) + b.toNat / 4 := by
  have hb := b.isLt
  have hnumber : natOfBits (bitsOfBytes [a, b]) = 256 * a.toNat + b.toNat := by
    simp only [natOfBits_bitsOfBytes_cons, List.length_cons, List.length_nil]
    simp [bitsOfBytes, natOfBits, Nat.mul_comm]
  rw [fieldOf_eq (by decide) (by decide) (by simp), hnumber, bitsOfBytes_length]
  simp only [List.length_cons, List.length_nil]
  omega

/-- The low bits of the last byte of a data run: the spare bits of every kind but TOGGLE and RECALL, which have none. -/
theorem fieldOf_last (data : List Byte) (c : Byte) {n : Nat} (hn : 1 ≤ n) (hn8 : n ≤ 8) :
    fieldOf (bitsOfBytes (data ++ [c])) (8 * data.length + 9 - n) (8 * data.length + 8) = c.toNat % 2 ^ n := by
  have hsplit : bitsOfBytes (data ++ [c]) = bitsOfBytes data ++ bitsOfByte c := by
    rw [bitsOfBytes, List.flatMap_append, List.flatMap_singleton]
    rfl
  rw [hsplit, fieldOf_append _ _ _ _ (by rw [bitsOfBytes_length]; omega), bitsOfBytes_length,
    (by omega : 8 * data.length + 9 - n - 8 * data.length = 9 - n), Nat.add_sub_cancel_left,
    fieldOf_eq (by omega) (by omega) (by simp), bitsOfByte_length, bitsOfByte, natOfBits_bitsOfNat,
    Nat.mod_eq_of_lt c.isLt, (by omega : 8 + 1 - (9 - n) = n), Nat.sub_self, Nat.pow_zero, Nat.div_one]

/-- Settles O14: the body of a request is read back (`sendRequest_sendBody`), and each fault of another is found at its
byte (`sendFault_cons_cons`, `sendFault_spare`). -/
theorem sendBodyCarriesItsRequest : Obligations.SendBodyCarriesItsRequest := by
  refine ⟨fun prio r hp h => ⟨sendLengthOk_sendBody prio r, sendFault_sendBody hp h, sendRequest_sendBody prio h, ?_⟩,
    ?_⟩
  · exact Nat.mod_eq_of_lt (by omega)
  intro tag p k a b c body s hrun hslot refused step
  have hrefused {body : List Byte} {i : Nat} (hlen : sendLengthOk body = true) (hfault : sendFault body = some i) :
      refused body i := exec_send_badField hrun hslot hlen hfault
  have hstep : fieldOf (bitsOfBytes [a, b]) 5 14 = step := fieldOf_step a b
  refine ⟨fun hp hlen => ?_, fun hp => ⟨fun hk => ?_, fun hbad => ?_, fun h0 h512 hspare => ?_, fun hspare => ?_,
    fun hspare => ⟨?_, ?_⟩, fun hspare => ?_⟩⟩
  · exact hrefused hlen (by rw [sendFault_cons_cons, if_pos hp])
  · refine hrefused ((sendLengthOk_cons_cons p k body).2 (.inl hk)) ?_
    rw [sendFault_cons_cons, if_neg (Nat.not_lt.2 hp), if_pos hk]
  · refine hrefused rfl ?_
    rw [sendFault_cons_cons, if_neg (Nat.not_lt.2 hp), if_neg (by decide), hstep]
    exact if_pos ⟨rfl, hbad⟩
  · exact hrefused rfl (sendFault_spare hp (by decide) (fun _ => by rw [hstep]; exact ⟨h0, h512⟩)
      ((fieldOf_last [a] b (n := 2) (by decide) (by decide)).trans_ne hspare))
  · exact hrefused rfl (sendFault_spare hp (by decide) (fun h => absurd h (by decide))
      ((fieldOf_last [a, b] c (n := 6) (by decide) (by decide)).trans_ne hspare))
  · exact hrefused rfl (sendFault_spare hp (by decide) (fun h => absurd h (by decide))
      ((fieldOf_last [] a (n := 4) (by decide) (by decide)).trans_ne hspare))
  · exact hrefused rfl (sendFault_spare hp (by decide) (fun h => absurd h (by decide))
      ((fieldOf_last [] a (n := 4) (by decide) (by decide)).trans_ne hspare))
  · exact hrefused rfl (sendFault_spare hp (by decide) (fun h => absurd h (by decide))
      ((fieldOf_last [a, b] c (n := 2) (by decide) (by decide)).trans_ne hspare))

end Sys2Proof.Machine

/-! The transmitter, the report queue and the reply slot: what each operation of the port makes, and the frames that
CTXD carries (R178, R182, R192 to R195, R212, R213). -/

namespace Sys2Proof.Machine

/-! ### Frames -/

/-- The frame of a type, tag and body is that of R212: its check byte brings the sum to 0. -/
theorem isFrame_frameBytes (type tag : Byte) (body : List Byte) : isFrame (frameBytes type tag body) type tag body := by
  refine ⟨frameCheck (BitVec.ofNat 8 (body.length + 2) :: type :: tag :: body), rfl, ?_⟩
  have hzero := foldl_add_frameCheck (BitVec.ofNat 8 (body.length + 2) :: type :: tag :: body)
  rw [frameBytes, List.cons_append, List.drop_one, List.tail_cons, List.foldl_append]
  exact hzero

/-- The type and the fields of a report are those of R213. -/
theorem Report.layout (r : Report) : reportLayout r = (r.typeCode, r.fields) := by
  cases r with
  | outcome tag o => cases o <;> rfl
  | state st cause => cases st <;> cases cause <;> rfl
  | zone z cause target current => cases cause <;> rfl
  | line event count => cases event <;> rfl
  | _ => rfl

theorem isFrame_queued (q : Queued) :
    isFrame q.frame (reportLayout q.report).1 q.seq (BitVec.ofNat 8 q.lost :: (reportLayout q.report).2) := by
  rw [Report.layout]
  exact isFrame_frameBytes _ _ _

/-- One byte on the pin, least significant bit first (R178). -/
theorem serialBits_eq (b : Byte) : serialBits b = [false, b.getLsbD 0, b.getLsbD 1, b.getLsbD 2, b.getLsbD 3,
    b.getLsbD 4, b.getLsbD 5, b.getLsbD 6, b.getLsbD 7, true] := rfl

/-! ### The transmitter's choice -/

theorem Cp.choose_reply {cp : Cp} {r : Reply} (h : cp.slot = some r) :
    cp.choose = { cp with sending := some ⟨true, r.frame⟩ } := by
  rw [Cp.choose, h]

theorem Cp.choose_report {cp : Cp} (h : cp.slot = none) {q : Queued} {rest : List Queued} (hq : cp.queue = q :: rest) :
    cp.choose = { cp with queue := rest, sending := some ⟨false, q.frame⟩ } := by
  rw [Cp.choose, h, hq]

theorem Cp.choose_idle {cp : Cp} (h : cp.slot = none) (hq : cp.queue = []) :
    cp.choose = { cp with sending := none } := by
  rw [Cp.choose, h, hq]

theorem Cp.kick_busy {cp : Cp} (h : cp.sending ≠ none) : cp.kick = cp := if_neg (by simpa using h)

/-- The end of a frame that orders no restart is the transmitter's next choice (R191, R195). -/
theorem exec_frameTransmitted {f : Sending} {s : State} (h : s.cp.sending = some f)
    (hrestart : f.isReply = false ∨ s.cp.restart = false) :
    exec .frameTransmitted s = .next (s.setCp (s.cp.frameEnd f)) := by
  show Host.Outcome.next _ = _
  rw [h]
  refine congrArg Host.Outcome.next (if_neg fun ⟨hreply, hpending⟩ => ?_)
  rcases hrestart with hr | hr
  · exact Bool.false_ne_true (hr.symm.trans hreply)
  · exact Bool.false_ne_true (hr.symm.trans hpending)

/-- The end of a report's frame leaves the slot as it is. -/
theorem Cp.frameEnd_report {f : Sending} (h : f.isReply = false) (cp : Cp) : cp.frameEnd f = cp.choose := by
  rw [Cp.frameEnd, if_neg (by simp [h])]

/-- Where the frame was the reply, or there is none, the choice is made with an empty slot (R192). -/
theorem Cp.frameEnd_emptied {f : Sending} {cp : Cp} (h : f.isReply = true ∨ cp.slot = none) :
    cp.frameEnd f = Cp.choose { cp with slot := none } := by
  cases hf : f.isReply with
  | true => rw [Cp.frameEnd, if_pos hf]
  | false =>
    have hslot : cp.slot = none := h.resolve_left (by simp [hf])
    rw [Cp.frameEnd_report hf, ← hslot]

theorem Cp.frameEnd_next {f : Sending} {cp : Cp} (h : f.isReply = true ∨ cp.slot = none) {q : Queued}
    {rest : List Queued} (hq : cp.queue = q :: rest) :
    cp.frameEnd f = { cp with slot := none, queue := rest, sending := some ⟨false, q.frame⟩ } :=
  (Cp.frameEnd_emptied h).trans (Cp.choose_report rfl hq)

theorem Cp.frameEnd_idle {f : Sending} {cp : Cp} (h : f.isReply = true ∨ cp.slot = none) (hq : cp.queue = []) :
    cp.frameEnd f = { cp with slot := none, sending := none } :=
  (Cp.frameEnd_emptied h).trans (Cp.choose_idle rfl hq)

/-! ### Reports -/

theorem Cp.wants_eq (cp : Cp) (r : Report) : cp.wants r = subscribed cp r := by
  cases r <;> rfl

theorem queuedReport_sending (cp : Cp) (r : Report) : (queuedReport cp r).sending = cp.sending := by
  unfold queuedReport
  split <;> rfl

theorem Cp.offer_unwanted {cp : Cp} {r : Report} (h : subscribed cp r = false) : cp.offer r = cp :=
  if_neg (by simp [Cp.wants_eq, h])

theorem Cp.offer_wanted {cp : Cp} {r : Report} (h : subscribed cp r = true) : cp.offer r = (queuedReport cp r).kick :=
  if_pos ((cp.wants_eq r).trans h)

theorem Cp.offer_busy {cp : Cp} {r : Report} (h : subscribed cp r = true) (hbusy : cp.sending ≠ none) :
    cp.offer r = queuedReport cp r := by
  rw [Cp.offer_wanted h, Cp.kick_busy (by rwa [queuedReport_sending])]

/-- An IDLE transmitter with nothing waiting sends the report at once (R195). -/
theorem Cp.offer_idle {cp : Cp} {r : Report} (h : subscribed cp r = true) (hidle : cp.sending = none)
    (hqueue : cp.queue = []) (hslot : cp.slot = none) : cp.offer r =
      { cp with lost := 0, seq := cp.seq + 1, sending := some ⟨false, Queued.frame ⟨r, cp.lost, cp.seq⟩⟩ } := by
  obtain ⟨assembler, slot, overrun, restart, queue, lost, seq, subs, sending⟩ := cp
  obtain rfl : slot = none := hslot
  obtain rfl : queue = [] := hqueue
  obtain rfl : sending = none := hidle
  exact Cp.offer_wanted h

/-! ### The order of reports -/

/-- Taking the head of a list leaves the rest of that list and the other lists. -/
theorem takeHead_eq_some : ∀ {ls : List (List Report)} {p : Nat} {r : Report} {out : List (List Report)},
    takeHead ls p = some (r, out) → ∃ pre l post, ls = pre ++ (r :: l) :: post ∧ out = pre ++ l :: post
  | [], _, _, _, h => by simp [takeHead] at h
  | [] :: _, 0, _, _, h => by simp [takeHead] at h
  | (x :: l) :: ls, 0, r, out, h => by
    simp only [takeHead, Option.some.injEq, Prod.mk.injEq] at h
    obtain ⟨rfl, rfl⟩ := h
    exact ⟨[], l, ls, rfl, rfl⟩
  | l :: ls, p + 1, r, out, h => by
    have hmap : (takeHead ls p).map (fun x => (x.1, l :: x.2)) = some (r, out) := by
      cases l <;> simpa [takeHead] using h
    obtain ⟨⟨r', out'⟩, hrest, heq⟩ := Option.map_eq_some_iff.1 hmap
    obtain ⟨rfl, rfl⟩ : r' = r ∧ l :: out' = out := by simpa using heq
    obtain ⟨pre, l', post, rfl, rfl⟩ := takeHead_eq_some hrest
    exact ⟨l :: pre, l', post, rfl, rfl⟩

/-- Each list's reports are taken in that list's order. -/
theorem sublist_interleave {l : List Report} : ∀ {order : OfferOrder} {ls : List (List Report)}, l ∈ ls →
    l.Sublist (interleave order ls)
  | [], _, h => List.sublist_flatten_of_mem h
  | p :: ps, ls, h => by
    rw [interleave]
    cases htake : takeHead ls p with
    | none => exact sublist_interleave h
    | some x =>
      obtain ⟨r, out⟩ := x
      obtain ⟨pre, l', post, rfl, rfl⟩ := takeHead_eq_some htake
      rcases List.mem_append.1 h with hpre | hpost
      · exact (sublist_interleave (List.mem_append_left _ hpre)).cons r
      · rcases List.mem_cons.1 hpost with rfl | hpost
        · exact (sublist_interleave (List.mem_append_right _ List.mem_cons_self)).cons_cons r
        · exact (sublist_interleave (List.mem_append_right _ (List.mem_cons_of_mem _ hpost))).cons r

/-! ### Replies -/

/-- The overrun flag, bit 6, is not set in the type of a reply made without it (R212). -/
theorem reply_type {type : Byte} (h : type ∈ [(0x81 : Byte), 0x82, 0x83]) (overrun : Bool) :
    (if overrun then type ||| 0x40#8 else type) = if overrun then type + 0x40 else type := by
  revert type overrun
  decide

/-- A reply waits behind the frame under way, and an IDLE transmitter begins it at once (R192, R195). -/
theorem Cp.reply_eq (cp : Cp) {type : Byte} (h : type ∈ [(0x81 : Byte), 0x82, 0x83]) (tag : Byte) (body : List Byte) :
    let t := if cp.overrun then type + 0x40 else type
    (cp.sending ≠ none → cp.reply type tag body = { cp with slot := some ⟨t, tag, body⟩, overrun := false }) ∧
    (cp.sending = none → ∃ frame, isFrame frame t tag body ∧ cp.reply type tag body =
      { cp with slot := some ⟨t, tag, body⟩, overrun := false, sending := some ⟨true, frame⟩ }) := by
  intro t
  have ht : (if cp.overrun then type ||| 0x40#8 else type) = t := reply_type h cp.overrun
  rw [Cp.reply, ht]
  refine ⟨fun hbusy => Cp.kick_busy hbusy, fun hidle => ⟨_, isFrame_frameBytes t tag body, ?_⟩⟩
  exact if_pos (show cp.sending.isNone = true by rw [hidle]; rfl)

/-- Settles O19, part by part: the choice, the offers, their order, the replies, the layouts, and the pin. -/
theorem transmitterChoosesAtTheEndOfAFrame : Obligations.TransmitterChoosesAtTheEndOfAFrame := by
  refine ⟨fun f s hf hrestart => ?_,
    fun r cp => ⟨Cp.offer_unwanted, Cp.offer_busy, fun hwanted hidle hqueue hslot => ?_⟩,
    fun cp => ⟨cp.offerAll_nil, cp.offerAll_cons⟩,
    fun order blocks => ⟨interleave_perm order blocks, fun l => sublist_interleave⟩, fun cp tag body => ?_,
    isFrame_queued, fun r => isFrame_frameBytes _ _ _, rfl, fun n => rfl, fun s => ⟨fun h => ?_, fun f h => ?_⟩,
    serialBits_eq⟩
  · rw [exec_frameTransmitted hf hrestart]
    refine ⟨fun r hreport hslot => ?_, fun hempty => ⟨fun q rest hqueue => ?_, fun hqueue => ?_⟩⟩
    · rw [Cp.frameEnd_report hreport, Cp.choose_reply hslot]
    · rw [Cp.frameEnd_next hempty hqueue]
    · rw [Cp.frameEnd_idle hempty hqueue]
  · exact ⟨_, Cp.offer_idle hwanted hidle hqueue hslot, isFrame_queued ⟨r, cp.lost, cp.seq⟩⟩
  · intro made
    have haccept : (0x81 : Byte) ∈ [(0x81 : Byte), 0x82, 0x83] := by decide
    have hrefuse : (0x82 : Byte) ∈ [(0x81 : Byte), 0x82, 0x83] := by decide
    have hlink : (0x83 : Byte) ∈ [(0x81 : Byte), 0x82, 0x83] := by decide
    exact ⟨cp.reply_eq haccept tag body, cp.reply_eq hlink tag body, cp.reply_eq hrefuse tag _,
      cp.reply_eq hrefuse tag _, fun i => cp.reply_eq hrefuse tag _, cp.reply_eq hrefuse tag _,
      cp.reply_eq hrefuse tag _, cp.reply_eq hrefuse tag _, cp.reply_eq hrefuse tag _⟩
  · rw [State.ctxd, h]
    rfl
  · rw [State.ctxd, h]
    rfl

end Sys2Proof.Machine

/-! The query bodies: flags as bits of a number, records of one length in a run of bytes, and what QUERY STATION, QUERY
ZONE, QUERY MEMBERS and QUERY SCENE answer (R186 to R189, R212). -/

namespace Sys2Proof.Machine

/-! ### Flags as bits -/

theorem bitWord_cons (b : Bool) (l : List Bool) : bitWord (b :: l) = b.toNat + 2 * bitWord l := rfl

/-- Flag `k` of a list is bit `k` of its number. -/
theorem testBit_bitWord (l : List Bool) (k : Nat) : (bitWord l).testBit k = l.getD k false := by
  induction l generalizing k with
  | nil => exact Nat.zero_testBit k
  | cons b l ih =>
    have hhalf : (b.toNat + 2 * bitWord l) / 2 = bitWord l := by cases b <;> simp; omega
    cases k with
    | zero => cases b <;> simp [bitWord_cons, Nat.testBit_zero]
    | succ k => rw [bitWord_cons, Nat.testBit_succ, hhalf, ih, List.getD_cons_succ]

theorem bitWord_lt (l : List Bool) : bitWord l < 2 ^ l.length := by
  induction l with
  | nil => exact Nat.one_pos
  | cons b l ih =>
    rw [bitWord_cons, List.length_cons, pow_succ]
    cases b <;> simp <;> omega

theorem getD_map_of_getElem? {α : Type} {f : α → Bool} {l : List α} {k : Nat} {x : α} (h : l[k]? = some x) :
    (l.map f).getD k false = f x := by
  rw [List.getD_eq_getElem?_getD, List.getElem?_map, h]
  rfl

/-- A number's low eight bits are those of its byte. -/
theorem getLsbD_byte {k : Nat} (hk : k < 8) (n : Nat) : (BitVec.ofNat 8 n).getLsbD k = n.testBit k := by
  rw [BitVec.getLsbD_ofNat, decide_eq_true hk, Bool.true_and]

/-- Bit `k` of a two-byte field stands in its high byte, the first, or its low one. -/
theorem getLsbD_wordBytes {k : Nat} (hk : k < 16) (n : Nat) :
    ((wordBytes n).getD (1 - k / 8) 0#8).getLsbD (k % 8) = n.testBit k := by
  rcases Nat.lt_or_ge k 8 with h | h
  · rw [Nat.div_eq_of_lt h, Nat.mod_eq_of_lt h]
    exact getLsbD_byte h n
  · have hk8 : k / 8 = 1 ∧ k % 8 = k - 8 := by omega
    have hhigh : (wordBytes n).getD (1 - 1) 0#8 = BitVec.ofNat 8 (n / 2 ^ 8) := rfl
    rw [hk8.1, hk8.2, hhigh, getLsbD_byte (by omega), Nat.testBit_div_two_pow, Nat.sub_add_cancel h]

/-! ### Records in a run -/

section Records

variable {α : Type} {f : α → List Byte} {n : Nat} (hf : ∀ x, (f x).length = n)
include hf

/-- A run of records of one length is as long as they are together. -/
theorem length_flatMap_records (l : List α) : (l.flatMap f).length = n * l.length := by
  induction l with
  | nil => rfl
  | cons x l ih => rw [List.flatMap_cons, List.length_append, ih, hf, List.length_cons, Nat.mul_succ, Nat.add_comm]

/-- Each record stands at its place in the run. -/
theorem record_flatMap {l : List α} {j : Nat} {x : α} (h : l[j]? = some x) :
    ((l.flatMap f).drop (n * j)).take n = f x := by
  induction l generalizing j with
  | nil => cases h
  | cons y l ih =>
    rw [List.flatMap_cons]
    cases j with
    | zero =>
      obtain rfl : y = x := by simpa using h
      exact List.take_left' (hf y)
    | succ j =>
      rw [Nat.mul_succ, Nat.add_comm, ← hf y, List.drop_length_add_append, hf y]
      exact ih (by simpa using h)

end Records

/-- A run over some members of a list is the run over those. -/
theorem flatMap_if_eq {α : Type} (p : α → Bool) (f : α → List Byte) (l : List α) :
    (l.flatMap fun x => if p x then f x else []) = (l.filter p).flatMap f := by
  induction l with
  | nil => rfl
  | cons x l ih =>
    rw [List.flatMap_cons, ih, List.filter_cons]
    cases p x <;> rfl

/-! ### QUERY STATION -/

/-- The first 13 bytes of the QUERY STATION body. -/
def State.stationHead (s : State) : List Byte :=
  [s.station.code, BitVec.ofNat 8 s.number, BitVec.ofNat 8 (bitWord [s.lc.framed, s.rg.lastOwn.isSome]), s.lc.count,
    BitVec.ofNat 8 s.mu.score, BitVec.ofNat 8 s.lc.slips] ++
  (wordBytes s.msu.settledCount ++ wordBytes s.msu.voidCount ++ wordBytes s.msu.discardCount ++
    [BitVec.ofNat 8 s.cq.entries.length])

/-- The four bytes of a key index's counts. -/
def KeyCounts.bytes (c : KeyCounts) : List Byte :=
  [BitVec.ofNat 8 c.sent, BitVec.ofNat 8 c.failed, BitVec.ofNat 8 c.stale, BitVec.ofNat 8 c.dropped]

/-- The flags of the key channels: pressed, then dim direction DOWN. -/
def Ku.flags (ku : Ku) : List Bool :=
  ku.channels.toList.map KeyChannel.pressed ++ ku.channels.toList.map KeyChannel.down

/-- The last 4 bytes of the QUERY STATION body. -/
def State.stationTail (s : State) : List Byte :=
  [BitVec.ofNat 8 (bitWord s.ku.flags), BitVec.ofNat 8 s.rg.gap, s.rg.lastOwn.getD 0, BitVec.setWidth 8 s.cp.subs]

theorem State.stationBody_eq (s : State) :
    s.stationBody = s.stationHead ++ (s.cq.counts.toList.flatMap KeyCounts.bytes ++ s.stationTail) := by
  rw [← List.append_assoc]
  rfl

theorem State.stationHead_length (s : State) : s.stationHead.length = 13 := rfl

theorem KeyCounts.bytes_length (c : KeyCounts) : c.bytes.length = 4 := rfl

theorem counts_length (counts : Vector KeyCounts 4) : (counts.toList.flatMap KeyCounts.bytes).length = 16 := by
  rw [length_flatMap_records KeyCounts.bytes_length, Vector.length_toList]

theorem getElem?_toList_fin {α : Type} {n : Nat} (v : Vector α n) (k : Fin n) : v.toList[k.val]? = some v[k] := by
  simp

theorem Ku.flags_pressed (ku : Ku) (k : Fin 4) : ku.flags.getD k.val false = ku.channels[k].pressed := by
  rw [Ku.flags, List.getD_append _ _ _ _ (by simp), getD_map_of_getElem? (getElem?_toList_fin ku.channels k)]

theorem Ku.flags_down (ku : Ku) (k : Fin 4) : ku.flags.getD (4 + k.val) false = ku.channels[k].down := by
  rw [Ku.flags, List.getD_append_right _ _ _ _ (by simp), List.length_map, Vector.length_toList,
    Nat.add_sub_cancel_left, getD_map_of_getElem? (getElem?_toList_fin ku.channels k)]

/-- Settles O15: the body is head, counts and tail (`State.stationBody_eq`), each at its place. -/
theorem queryStationReportsTheStation : Obligations.QueryStationReportsTheStation := by
  intro tag s hready hslot
  refine ⟨s.stationBody, exec_action (t := .queryStation) hready hslot rfl rfl rfl, ?_⟩
  have hcounts := counts_length s.cq.counts
  have htail : s.stationBody.drop 29 = s.stationTail := by
    rw [State.stationBody_eq, ← List.append_assoc]
    exact List.drop_left' (by rw [List.length_append, hcounts]; rfl)
  have hkeys : s.stationBody.getD 29 0#8 = BitVec.ofNat 8 (bitWord s.ku.flags) := by
    rw [List.getD_eq_getElem?_getD, ← List.head?_drop, htail]
    rfl
  refine ⟨?_, ?_, ?_, fun k => ?_, fun k => ⟨?_, ?_⟩, ?_⟩
  · rw [State.stationBody_eq, List.length_append, List.length_append, hcounts]
    rfl
  · rw [State.stationBody_eq]
    rfl
  · rw [State.stationBody_eq]
    rfl
  · rw [State.stationBody_eq, ← s.stationHead_length, List.drop_length_add_append,
      List.drop_append_of_le_length (by omega), List.take_append_of_le_length (by rw [List.length_drop]; omega),
      record_flatMap KeyCounts.bytes_length (getElem?_toList_fin s.cq.counts k)]
    rfl
  · rw [hkeys, getLsbD_byte (by omega), testBit_bitWord, Ku.flags_pressed]
  · rw [hkeys, getLsbD_byte (by omega), testBit_bitWord, Ku.flags_down]
  · rw [← List.drop_drop (i := 1) (j := 29), htail]
    rfl

end Sys2Proof.Machine

/-! The bodies of QUERY ZONE, QUERY MEMBERS and QUERY SCENE, and the settling of what they answer (R187 to R189, R212).
-/

namespace Sys2Proof.Machine

/-! ### QUERY ZONE -/

/-- The assigned channels are the flags of the four outputs that name the zone. -/
theorem Configuration.channelSet_eq (c : Configuration) (z : Fin 16) :
    c.channelSet z = bitWord ((List.finRange 4).map fun k => c.outputs[k].zone == some z) := by
  have hrange : List.finRange 4 = [0, 1, 2, 3] := rfl
  rw [Configuration.channelSet, hrange]
  simp only [List.foldl_cons, List.foldl_nil, List.map_cons, List.map_nil]
  generalize (c.outputs[(0 : Fin 4)].zone == some z) = b0
  generalize (c.outputs[(1 : Fin 4)].zone == some z) = b1
  generalize (c.outputs[(2 : Fin 4)].zone == some z) = b2
  generalize (c.outputs[(3 : Fin 4)].zone == some z) = b3
  revert b0 b1 b2 b3
  decide

theorem Configuration.channelSet_lt (c : Configuration) (z : Fin 16) : c.channelSet z < 16 := by
  rw [Configuration.channelSet_eq]
  exact bitWord_lt _

theorem Configuration.testBit_channelSet (c : Configuration) (z : Fin 16) (ch : Fin 4) :
    (c.channelSet z).testBit ch.val = (c.outputs[ch].zone == some z) := by
  rw [Configuration.channelSet_eq, testBit_bitWord]
  exact getD_map_of_getElem? (by simp)

/-- The first byte of the QUERY ZONE body: the zone, and its four flags above it. -/
theorem zoneFlags_eq (z : Nat) (reporter heard unverified : Bool) :
    z + 16 * bitWord [reporter, heard, unverified, true] =
      z + 16 * reporter.toNat + 32 * heard.toNat + 64 * unverified.toNat + 128 := by
  simp only [bitWord, List.foldr_cons, List.foldr_nil, Bool.toNat_true]
  omega

theorem State.liveZoneBody_length (s : State) (z : Fin 16) : (s.liveZoneBody z).length = 16 := rfl

theorem State.liveZoneBody_first (s : State) (z : Fin 16) : (s.liveZoneBody z).getD 0 0#8 =
    BitVec.ofNat 8 (z.val + 16 * (s.reporter z).toNat + 32 * s.ze.zones[z].heard.toNat +
      64 * s.ze.zones[z].unverified.toNat + 128) := congrArg (BitVec.ofNat 8) (zoneFlags_eq _ _ _ _)

theorem State.liveZoneBody_levels (s : State) (z : Fin 16) : ((s.liveZoneBody z).drop 1).take 8 =
    wordBytes s.ze.zones[z].target ++ wordBytes s.ze.zones[z].current ++ wordBytes s.ze.zones[z].fade ++
      wordBytes s.ze.zones[z].lastOn := rfl

theorem State.liveZoneBody_hold (s : State) (z : Fin 16) : ((s.liveZoneBody z).drop 9).take 5 =
    BitVec.ofNat 8 (128 * s.ze.zones[z].hold.isSome.toNat + (s.ze.zones[z].hold.getD ⟨0, 0, 0⟩).fade) ::
      wordBytes (s.ze.zones[z].hold.getD ⟨0, 0, 0⟩).remainder ++
      wordBytes (s.ze.zones[z].hold.getD ⟨0, 0, 0⟩).vacant := rfl

theorem State.liveZoneBody_channels (s : State) (z : Fin 16) :
    (s.liveZoneBody z).getD 15 0#8 = BitVec.ofNat 8 (s.conf.channelSet z) := rfl

theorem State.zoneBody_live {s : State} {z : Fin 16} (h : s.conf.tracks z = true) : s.zoneBody z = s.liveZoneBody z :=
  if_pos h

theorem State.zoneBody_not_live {s : State} {z : Fin 16} (h : s.conf.tracks z = false) :
    s.zoneBody z = BitVec.ofNat 8 z.val :: List.replicate 15 0#8 := if_neg (by simp [h])

theorem State.zoneBody_length (s : State) (z : Fin 16) : (s.zoneBody z).length = 16 := by
  cases h : s.conf.tracks z with
  | true => rw [State.zoneBody_live h, State.liveZoneBody_length]
  | false => rw [State.zoneBody_not_live h]; rfl

/-! ### QUERY MEMBERS -/

/-- Record `j` of a half is that of the station `16 × half + j` (R188). -/
theorem Mu.half_getElem? (mu : Mu) {half : Nat} {j : Fin 16} {n : Fin 32} (h : n.val = 16 * half + j.val) :
    (mu.half half)[j.val]? = some mu.members[n] := by
  rw [Mu.half, List.getElem?_take, if_pos j.isLt, List.getElem?_drop, ← h]
  exact getElem?_toList_fin mu.members n

theorem Mu.half_length (mu : Mu) (half : Fin 2) : (mu.half half.val).length = 16 := by
  rw [Mu.half, List.length_take, List.length_drop, Vector.length_toList]
  omega

/-- Flag `j` of a two-byte field of flags. -/
theorem wordBytes_flag {α : Type} {f : α → Bool} {l : List α} {j : Fin 16} {x : α} (h : l[j.val]? = some x) :
    ((wordBytes (bitWord (l.map f))).getD (1 - j.val / 8) 0#8).getLsbD (j.val % 8) = f x := by
  rw [getLsbD_wordBytes j.isLt, testBit_bitWord, getD_map_of_getElem? h]

section Members

variable (s : State) (half : Nat)

/-- The body in its parts: the half, the two fields of flags, and the zone sets. -/
theorem State.membersBody_eq : s.membersBody half = BitVec.ofNat 8 half ::
    (wordBytes (bitWord ((s.mu.half half).map Member.present)) ++
      (wordBytes (bitWord ((s.mu.half half).map fun m => m.misses == 1)) ++
        (s.mu.half half).flatMap fun m => wordBytes m.zones.toNat)) := rfl

variable {half} {j : Fin 16} {x : Member} (h : (s.mu.half half)[j.val]? = some x)
include h

theorem State.membersBody_present :
    ((s.membersBody half).getD (2 - j.val / 8) 0#8).getLsbD (j.val % 8) = x.present := by
  have hplace : 2 - j.val / 8 = 1 - j.val / 8 + 1 := by omega
  rw [State.membersBody_eq, hplace, List.getD_cons_succ,
    List.getD_append _ _ _ _ (show 1 - j.val / 8 < 2 by omega), wordBytes_flag h]

theorem State.membersBody_misses :
    ((s.membersBody half).getD (4 - j.val / 8) 0#8).getLsbD (j.val % 8) = (x.misses == 1) := by
  have hplace : 4 - j.val / 8 = 1 - j.val / 8 + 2 + 1 := by omega
  have hlen (n : Nat) : (wordBytes n).length = 2 := rfl
  rw [State.membersBody_eq, hplace, List.getD_cons_succ,
    List.getD_append_right _ _ _ _ (by rw [hlen]; omega), hlen, Nat.add_sub_cancel,
    List.getD_append _ _ _ _ (by rw [hlen]; omega), wordBytes_flag h]

theorem State.membersBody_zones :
    ((s.membersBody half).drop (5 + 2 * j.val)).take 2 = wordBytes x.zones.toNat := by
  have hrun : (s.membersBody half).drop 5 = (s.mu.half half).flatMap fun m => wordBytes m.zones.toNat := rfl
  rw [← List.drop_drop, hrun]
  exact record_flatMap (f := fun m : Member => wordBytes m.zones.toNat) (fun _ => rfl) h

end Members

theorem State.membersBody_length (s : State) (half : Fin 2) : (s.membersBody half.val).length = 37 := by
  have hrun : ((s.mu.half half.val).flatMap fun m => wordBytes m.zones.toNat).length = 32 := by
    rw [length_flatMap_records (n := 2) fun _ => rfl, Mu.half_length]
  rw [State.membersBody, List.length_append, hrun]
  rfl

/-! ### QUERY SCENE -/

theorem SceneEntry.bytes_eq (e : SceneEntry) (z : Fin 16) : e.bytes z =
    BitVec.ofNat 8 (z.val + 64 * e.correction.toNat + 128 * e.level.isSome.toNat) ::
      wordBytes (e.level.getD 0) ++ [e.gen] := by
  have hflags : z.val + 64 * bitWord [e.correction, e.level.isSome] =
      z.val + 64 * e.correction.toNat + 128 * e.level.isSome.toNat := by
    simp only [bitWord, List.foldr_cons, List.foldr_nil]
    omega
  rw [SceneEntry.bytes, hflags]
  rfl

/-- The entries of a scene are a run of four-byte records, one for each tracked zone. -/
theorem State.sceneBody_eq (s : State) (sc : Fin 16) : s.sceneBody sc = [BitVec.ofNat 8 sc, s.ss.gens[sc]] ++
    ((List.finRange 16).filter s.conf.tracks).flatMap fun z => (s.ss.entry sc z).bytes z := by
  rw [State.sceneBody, flatMap_if_eq]

/-- The body is the scene, its generation and a run of four-byte entries. -/
theorem State.sceneBody_length (s : State) (sc : Fin 16) :
    (s.sceneBody sc).length = 2 + 4 * ((List.finRange 16).filter s.conf.tracks).length := by
  rw [State.sceneBody_eq, List.length_append, length_flatMap_records (n := 4) fun _ => rfl]
  rfl

theorem State.sceneBody_entry (s : State) (sc : Fin 16) {j : Nat} {z : Fin 16}
    (h : ((List.finRange 16).filter s.conf.tracks)[j]? = some z) :
    ((s.sceneBody sc).drop (2 + 4 * j)).take 4 = (s.ss.entry sc z).bytes z := by
  rw [State.sceneBody_eq, ← List.drop_drop]
  exact record_flatMap (f := fun z => (s.ss.entry sc z).bytes z) (fun _ => rfl) h

/-! ### The queries in a running station -/

/-- A four-bit number is read back from its byte. -/
theorem ofNat_byte (z : Fin 16) : Fin.ofNat 16 (BitVec.ofNat 8 z.val).toNat = z := by
  apply Fin.ext
  rw [Fin.val_ofNat, BitVec.toNat_ofNat]
  omega

theorem ofNat_byte_le (z : Fin 16) : ¬15 < (BitVec.ofNat 8 z.val).toNat := by
  rw [BitVec.toNat_ofNat]
  omega

section Queries

variable {s : State} (hrun : s.station.running = true) (hslot : s.cp.slot = none)
include hrun hslot

/-- A running station answers a one-byte query whose byte is in range. -/
theorem exec_query {t : RequestType} {tag b : Byte} (ht : t ≠ .configure) (hlen : t.lengthOk [b] = true)
    (hfield : t.fieldFault [b] = none) : exec (t.command tag [b]) s = .next (t.action tag [b] s) :=
  exec_action (StationState.ne_reset_of_running hrun) hslot hlen (RequestType.stateFault_of_running ht hrun) hfield

/-- A running station refuses a one-byte query whose byte is out of range. -/
theorem exec_query_badField {t : RequestType} {tag b : Byte} (ht : t ≠ .configure) (hlen : t.lengthOk [b] = true)
    (hfield : t.fieldFault [b] = some 0) :
    exec (t.command tag [b]) s = .next (s.setCp (s.cp.refuse tag (.badField 0))) :=
  exec_badField (StationState.ne_reset_of_running hrun) hslot hlen (RequestType.stateFault_of_running ht hrun) hfield

theorem exec_queryZone (tag : Byte) (z : Fin 16) : exec (.queryZone tag [BitVec.ofNat 8 z.val]) s =
    .next (s.setCp (s.cp.accept tag (s.zoneBody z))) :=
  (exec_query hrun hslot (t := .queryZone) (by decide) rfl
    (if_neg (ofNat_byte_le z))).trans
    (congrArg (fun n => Host.Outcome.next (s.accept tag (s.zoneBody n))) (ofNat_byte z))

theorem exec_queryScene (tag : Byte) (sc : Fin 16) : exec (.queryScene tag [BitVec.ofNat 8 sc.val]) s =
    .next (s.setCp (s.cp.accept tag (s.sceneBody sc))) :=
  (exec_query hrun hslot (t := .queryScene) (by decide) rfl
    (if_neg (ofNat_byte_le sc))).trans
    (congrArg (fun n => Host.Outcome.next (s.accept tag (s.sceneBody n))) (ofNat_byte sc))

theorem exec_queryMembers (tag : Byte) (half : Fin 2) : exec (.queryMembers tag [BitVec.ofNat 8 half.val]) s =
    .next (s.setCp (s.cp.accept tag (s.membersBody half.val))) := by
  have hbyte : (BitVec.ofNat 8 half.val).toNat = half.val := Nat.mod_eq_of_lt (by omega)
  have hrange : ¬1 < (BitVec.ofNat 8 half.val).toNat := by omega
  exact (exec_query hrun hslot (t := .queryMembers) (by decide) rfl (if_neg hrange)).trans
    (congrArg (fun n => Host.Outcome.next (s.accept tag (s.membersBody n))) hbyte)

end Queries

/-- Settles O16: each query in range answers its body, whose parts are read one by one, and any other is refused. -/
theorem queriesReadTheTables : Obligations.QueriesReadTheTables := by
  intro tag s hrun hslot
  refine ⟨fun z => ⟨s.zoneBody z, exec_queryZone hrun hslot tag z, s.zoneBody_length z, State.zoneBody_not_live,
      fun hlive => ?_⟩,
    fun half => ⟨s.membersBody half.val, exec_queryMembers hrun hslot tag half, s.membersBody_length half, rfl,
      fun j n hn => ?_⟩,
    fun sc => ⟨s.sceneBody sc, exec_queryScene hrun hslot tag sc, rfl, s.sceneBody_length sc, fun j z hz => ?_⟩,
    fun b => ⟨fun hb => ⟨?_, ?_⟩, fun hb => ?_⟩⟩
  · rw [State.zoneBody_live hlive, State.liveZoneBody_hold, State.liveZoneBody_channels]
    refine ⟨s.liveZoneBody_first z, s.liveZoneBody_levels z, fun h => ?_, fun h hh => ?_, rfl, ?_, fun ch => ?_⟩
    · rw [h]
      rfl
    · rw [hh]
      rfl
    · rw [BitVec.toNat_ofNat]
      exact (Nat.mod_le _ _).trans_lt (s.conf.channelSet_lt z)
    · rw [getLsbD_byte (by omega), Configuration.testBit_channelSet]
  · have h := s.mu.half_getElem? hn
    exact ⟨s.membersBody_present h, s.membersBody_misses h, s.membersBody_zones h⟩
  · intro e
    rw [State.sceneBody_entry s sc hz, SceneEntry.bytes_eq]
  · exact exec_query_badField hrun hslot (t := .queryZone) (by decide) rfl (if_pos hb)
  · exact exec_query_badField hrun hslot (t := .queryScene) (by decide) rfl (if_pos hb)
  · exact exec_query_badField hrun hslot (t := .queryMembers) (by decide) rfl (if_pos hb)

end Sys2Proof.Machine

/-! The load state and the station state: what keeps CL as it is in a running station, part by part of a happening
(R198, R205, R206). -/

namespace Sys2Proof.Machine

/-! ### The load state that goes with a station state (R198) -/

/-- The load state of CL in each station state. -/
def StationState.loadState : StationState → LoadState
  | .reset => .idle
  | .loading => .reading
  | .unconfigured => .empty
  | .listening | .active | .muted | .lineFault => .held

theorem StationState.loadState_eq_idle {st : StationState} : st.loadState = .idle ↔ st = .reset := by
  cases st <;> decide

theorem StationState.loadState_eq_reading {st : StationState} : st.loadState = .reading ↔ st = .loading := by
  cases st <;> decide

theorem StationState.loadState_eq_empty {st : StationState} : st.loadState = .empty ↔ st = .unconfigured := by
  cases st <;> decide

theorem StationState.loadState_eq_held {st : StationState} : st.loadState = .held ↔ st.running = true := by
  cases st <;> decide

theorem StationState.running_of_reading {st : StationState} (h : st.reading = true) : st.running = true := by
  cases st with
  | listening | active | muted => rfl
  | _ => cases h

theorem StationState.running_of_ticking {st : StationState} (h : st.ticking = true) : st.running = true := by
  cases st with
  | active | muted => rfl
  | _ => cases h

/-- What CL holds is sound: an empty buffer but for a read in progress, which is short of 39 bytes, and in HELD alone a
configuration, in range. -/
structure Cl.Ok (cl : Cl) : Prop where
  buffer  : cl.load ≠ .reading → cl.buffer = []
  filling : cl.buffer.length < 39
  shown   : cl.config.isSome = true ↔ cl.load = .held
  range   : ∀ c, cl.config = some c → c.Ok

/-- CL agrees with the station when it is sound, its load state is the station state's, and no restart is pending in a
station that may not be restarted. -/
theorem loadOk_iff (s : State) :
    LoadOk s ↔ s.cl.load = s.station.loadState ∧ s.cl.Ok ∧ (s.cp.restart = true → s.station.running = true) := by
  constructor
  · intro h
    refine ⟨?_, ⟨h.buffer, h.filling, h.shown, h.range⟩, h.restart⟩
    cases hload : s.cl.load with
    | idle => exact (StationState.loadState_eq_idle.2 (h.idle.1 hload)).symm
    | reading => exact (StationState.loadState_eq_reading.2 (h.reading.1 hload)).symm
    | empty => exact (StationState.loadState_eq_empty.2 (h.empty.1 hload)).symm
    | held => exact (StationState.loadState_eq_held.2 (h.held.1 hload)).symm
  · rintro ⟨hload, hcl, hrestart⟩
    exact {
      idle := hload ▸ StationState.loadState_eq_idle
      reading := hload ▸ StationState.loadState_eq_reading
      empty := hload ▸ StationState.loadState_eq_empty
      held := hload ▸ StationState.loadState_eq_held
      buffer := hcl.buffer
      filling := hcl.filling
      shown := hcl.shown
      range := hcl.range
      restart := hrestart }

/-! ### States of a running station -/

/-- From `s` to `t` CL is as it was, and a running station stays running. -/
structure StaysRunning (s t : State) : Prop where
  cl      : t.cl = s.cl
  running : s.station.running = true → t.station.running = true

namespace StaysRunning

theorem refl (s : State) : StaysRunning s s := ⟨rfl, id⟩

theorem trans {s t u : State} (h : StaysRunning s t) (k : StaysRunning t u) : StaysRunning s u :=
  ⟨k.cl.trans h.cl, k.running ∘ h.running⟩

/-- A change that reaches neither CL nor MU. -/
theorem of_eq {s t : State} (hcl : t.cl = s.cl) (hmu : t.mu = s.mu) : StaysRunning s t :=
  ⟨hcl, fun h => by rwa [State.station, hmu]⟩

theorem ite {s : State} (c : Prop) [Decidable c] {v w : Work} (hv : StaysRunning s v.s) (hw : StaysRunning s w.s) :
    StaysRunning s (if c then v else w).s := by
  split
  · exact hv
  · exact hw

/-! ### The shared operations -/

theorem finish {s : State} (order : OfferOrder) {w : Work} (h : StaysRunning s w.s) :
    StaysRunning s (w.finish order) := h.trans ⟨rfl, id⟩

theorem endContest (s : State) : StaysRunning s s.endContest := of_eq s.endContest_cl s.endContest_mu

theorem voided (w : Work) (p : Option Presenter) : StaysRunning w.s (w.voided p).s := by
  rw [Work.voided_s]
  split <;> exact ⟨rfl, id⟩

/-- At most the score takes an ACTIVE station to MUTED (R45). -/
theorem raise (w : Work) (n : Nat) : StaysRunning w.s (w.raise n).s := by
  rw [Work.raise_s]
  split
  · split
    · exact ⟨rfl, fun _ => rfl⟩
    · exact ⟨rfl, id⟩
  · exact .refl w.s

theorem disturb (w : Work) : StaysRunning w.s w.disturb.s := by
  rw [Work.disturb_s]
  exact ⟨rfl, id⟩

/-- LINE FAULT leaves CL in HELD (R47). -/
theorem enterLineFault (w : Work) (c : Cause) : StaysRunning w.s (w.enterLineFault c).s := by
  obtain ⟨-, -, -, -, hcl, -⟩ := w.enterLineFault_frame c
  exact ⟨hcl, fun _ => rfl⟩

theorem enterListening (w : Work) (c : Cause) : StaysRunning w.s (w.enterListening c).s := ⟨rfl, fun _ => rfl⟩

theorem driveFault (w : Work) : StaysRunning w.s w.driveFault.s := by
  rw [Work.driveFault_s]
  split
  · exact .refl w.s
  · dsimp only
    split
    · refine StaysRunning.trans ?_ (enterLineFault _ _)
      exact ⟨rfl, id⟩
    · refine StaysRunning.trans ?_ (raise _ 8)
      exact ⟨rfl, id⟩

theorem ifFault (c : Bool) (w : Work) : StaysRunning w.s (if c then w.driveFault else w).s :=
  ite _ (driveFault w) (.refl w.s)

theorem unlessFaulted {s : State} {v : Work} {f : Work → Work} (hv : StaysRunning s v.s)
    (hf : ∀ w, StaysRunning w.s (f w).s) : StaysRunning s (v.unlessFaulted f).s := by
  unfold Work.unlessFaulted
  split
  · exact hv
  · exact hv.trans (hf v)

/-! ### The fields of a frame -/

theorem countComplete (w : Work) (active : Bool) : StaysRunning w.s (w.countComplete active).s := by
  unfold Work.countComplete
  dsimp only
  split <;> split <;> exact ⟨rfl, id⟩

theorem ownPresence (w : Work) (r : Reading) : StaysRunning w.s (w.ownPresence r).s := by
  unfold Work.ownPresence
  split
  · cases r <;> exact ⟨rfl, id⟩
  · cases r <;> exact .refl w.s
  · exact .refl w.s

theorem otherPresence (w : Work) (i : Fin 32) (r : Reading) : StaysRunning w.s (w.otherPresence i r).s := ⟨rfl, id⟩

theorem claimComplete (s : State) : StaysRunning s s.claimComplete := by
  unfold State.claimComplete
  dsimp only
  split
  · exact (endContest s).trans ⟨rfl, id⟩
  · split <;> exact ⟨rfl, id⟩

theorem claimLine (s : State) (r : Reading) : StaysRunning s (s.claimLine r).s := by
  unfold State.claimLine
  dsimp only
  have hkept : StaysRunning s (if s.station = .active then s else s.endContest) := by
    split
    · exact .refl s
    · exact endContest s
  generalize (if s.station = .active then s else s.endContest) = t at hkept ⊢
  exact (hkept.trans (ite (v := (Work.start t).on State.endContest) (w := .start t) _ (endContest t) (.refl t))).trans
    (ifFault _ _)

theorem receive (w : Work) (r : Reading) : StaysRunning w.s (w.receive r).s :=
  (ite (w.s.msu.frame.atPad && !r) (disturb w) (.refl w.s)).trans ⟨rfl, id⟩

theorem readBack (w : Work) (r : Reading) : StaysRunning w.s (w.readBack r).s := by
  unfold Work.readBack
  dsimp only
  split
  · refine StaysRunning.trans ?_ (raise _ 4)
    exact ⟨rfl, id⟩
  · exact ⟨rfl, id⟩

theorem statementSettled (s : State) : StaysRunning s s.statementSettled := by
  unfold State.statementSettled
  split
  · exact .refl s
  · dsimp only
    split <;> split <;> exact ⟨rfl, id⟩

theorem outcomeOf (w : Work) (v : Verdict) (p : Option Presenter) : StaysRunning w.s (w.outcomeOf v p).s := by
  unfold Work.outcomeOf
  split
  · dsimp only
    split
    · exact ⟨rfl, id⟩
    · refine StaysRunning.trans ?_ (statementSettled _)
      exact ⟨rfl, id⟩
    · exact ⟨rfl, id⟩
  · exact voided w p

theorem readVeto (w : Work) (r : Reading) : StaysRunning w.s (w.readVeto r).s := by
  unfold Work.readVeto
  dsimp only
  have hraised : StaysRunning w.s
      (if w.s.msu.frame.role = .receiver ∧ w.s.msu.frame.faultFound = true then w.raise 1 else w).s :=
    ite _ (raise w 1) (.refl w.s)
  generalize (if w.s.msu.frame.role = .receiver ∧ w.s.msu.frame.faultFound = true then w.raise 1 else w) = v
    at hraised ⊢
  have hmarked : StaysRunning w.s (if w.s.msu.frame.verdict r = .discarded then
      (v.on fun s => s.takeResult (w.s.msu.frame.verdict r)).on State.markZones
      else v.on fun s => s.takeResult (w.s.msu.frame.verdict r)).s :=
    hraised.trans (ite _ ⟨rfl, id⟩ ⟨rfl, id⟩)
  refine ite _ (StaysRunning.trans ?_ (outcomeOf _ _ _)) hmarked
  exact ite _ (hmarked.trans (raise _ 4)) hmarked

/-! ### A mark -/

/-- MU's judgement of a frame moves the station between LISTENING, ACTIVE and MUTED at most (R38, R46, R48). -/
theorem judgeFrame (k : MarkKind) (w : Work) : StaysRunning w.s (w.judgeFrame k).s := by
  refine ⟨(LeavesQueue.judgeFrame k w).cl, fun h => ?_⟩
  have hmembership (v : Work) (c : Cause) : (v.enterMembership c).s.station.running = true := by
    rw [Work.enterMembership_s]
    show (if v.s.mu.score < 64 then StationState.active else .muted).running = true
    split <;> rfl
  unfold Work.judgeFrame
  dsimp only
  split
  · exact hmembership _ _
  · exact h
  · split
    · unfold Work.joinTest
      dsimp only
      split
      · exact hmembership _ _
      · split <;> exact h
    · unfold Work.cleanTest
      dsimp only
      split <;> split
      · rfl
      · exact h
      · rfl
      · exact h

theorem evidence (k : MarkKind) (m : MarkObs) (w : Work) : StaysRunning w.s (w.evidence k m).s := by
  obtain ⟨members, hs⟩ := w.evidence_s k m
  rw [hs]
  exact ⟨rfl, id⟩

theorem zoneStages (k : MarkKind) (fullActive : Bool) (w : Work) :
    StaysRunning w.s (w.zoneStages k fullActive).s := by
  obtain ⟨ze, ss, hs⟩ := w.zoneStages_s k fullActive
  rw [hs]
  exact ⟨rfl, id⟩

theorem outputsAtMark (k : MarkKind) (s : State) : StaysRunning s (s.outputsAtMark k) := ⟨rfl, id⟩

theorem beforeQueue (k : MarkKind) (m : MarkObs) (s : State) : StaysRunning s (beforeQueue k m s).s := by
  have hended : StaysRunning s ((Work.start s).endFrame k m).s := by
    rw [Work.endFrame_s]
    exact ⟨rfl, id⟩
  exact (((hended.trans (judgeFrame k _)).trans (evidence k m _)).trans (zoneStages k _ _)).trans (outputsAtMark k _)

theorem keyOffer (w : Work) (k : Fin 4) (req : Option Request) : StaysRunning w.s (w.keyOffer k req).s := by
  obtain ⟨⟨-, hmu, -, -, -, -, -, -, hcl, -⟩, -⟩ := w.keyOffer_same k req
  exact of_eq hcl hmu

theorem takeMark (k : MarkKind) (m : MarkObs) (s : State) : StaysRunning s (takeMark k m s) := by
  obtain ⟨-, hmu, -, -, -, -, -, -, hcl, -⟩ :=
    queueTasks_same m (s.inFrame .queue) (taskOrder m.queueOrder) (Machine.beforeQueue k m s)
  exact ((beforeQueue k m s).trans (of_eq hcl hmu)).trans ⟨rfl, id⟩

/-- A held key's part of a mark reaches the claim queue and the key unit alone (R166, R167). -/
theorem holdKey (s : State) (k : Fin 4) : StaysRunning s (s.holdKey k) := by
  refine finish [] (StaysRunning.trans ?_ (keyOffer _ k _))
  exact ⟨rfl, id⟩

end StaysRunning

end Sys2Proof.Machine

/-! Every step keeps each load state with its station state, the buffer and the configuration (R198, R200, R201, R206,
R207). -/

namespace Sys2Proof.Machine

/-! ### What every command keeps of CL -/

/-- From `s` to `t` the load state is kept in agreement with the station, and a configuration in HELD stays. -/
structure KeepsLoad (s t : State) : Prop where
  ok   : LoadOk s → LoadOk t
  held : LoadOk s → s.cl.load = .held → t.cl = s.cl

namespace KeepsLoad

theorem refl (s : State) : KeepsLoad s s := ⟨id, fun _ _ => rfl⟩

theorem trans {s t u : State} (h : KeepsLoad s t) (k : KeepsLoad t u) : KeepsLoad s u where
  ok := k.ok ∘ h.ok
  held hs hheld := by
    have hcl := h.held hs hheld
    exact (k.held (h.ok hs) (hcl ▸ hheld)).trans hcl

/-- A running station that stays running keeps its configuration, and may be restarted at any time (R183). -/
theorem of_running {s t : State} (hrun : s.station.running = true) (a : StaysRunning s t) : KeepsLoad s t where
  ok h := by
    obtain ⟨hload, hcl, -⟩ := (loadOk_iff s).1 h
    have ht := a.running hrun
    refine (loadOk_iff t).2 ⟨?_, a.cl ▸ hcl, fun _ => ht⟩
    rw [a.cl, hload, StationState.loadState_eq_held.2 hrun, StationState.loadState_eq_held.2 ht]
  held _ _ := a.cl

/-- A change that reaches neither CL nor the station state, and makes no restart pending. -/
theorem of_station {s t : State} (hcl : t.cl = s.cl) (hstation : t.station = s.station)
    (hrestart : t.cp.restart = true → s.cp.restart = true) : KeepsLoad s t where
  ok h := by
    obtain ⟨hload, hok, hrun⟩ := (loadOk_iff s).1 h
    rw [loadOk_iff, hcl, hstation]
    exact ⟨hload, hok, hrun ∘ hrestart⟩
  held _ _ := hcl

/-- A station that does not run yet has no configuration to keep. -/
theorem of_starting {s t : State} (hrun : s.station.running = false) (ht : LoadOk s → LoadOk t) : KeepsLoad s t where
  ok := ht
  held h hheld := by
    rw [h.held.1 hheld] at hrun
    cases hrun

theorem ite {s : State} (c : Prop) [Decidable c] {t : State} (h : c → KeepsLoad s t) :
    KeepsLoad s (if c then t else s) := by
  split
  · next hc => exact h hc
  · exact .refl s

end KeepsLoad

/-! ### A valid block (R201, R207, R209, R211) -/

/-- The fields that a valid block carries are in range. -/
theorem readBlock_ok {b : List Byte} (h : faultIndex b = none) : (readBlock b).Ok := by
  have hlt (i : Nat) : blockByte b i < 256 := (b.getD i 0xFF#8).isLt
  have hvalid (i : Nat) (hi : i < 39) := byteFault_of_valid h hi
  have h2 := hvalid 2 (by decide)
  have h3 := hvalid 3 (by decide)
  have h4 := hvalid 4 (by decide)
  have h5 := hvalid 5 (by decide)
  have h6 := hvalid 6 (by decide)
  have h7 := hvalid 7 (by decide)
  simp only [byteFault, Bool.or_eq_false_iff, beq_eq_false_iff_ne, decide_eq_false_iff_not] at h2 h3 h4 h5 h6 h7
  have hlt3 := hlt 3
  have hlt5 := hlt 5
  have hlt6 := hlt 6
  have hlt7 := hlt 7
  exact {
    width := by dsimp only [readBlock]; omega
    frameLength := by dsimp only [readBlock]; omega
    restatement := by dsimp only [readBlock]; omega
    staleness := by dsimp only [readBlock]; omega
    longPress := by dsimp only [readBlock]; omega
    failDelay := by dsimp only [readBlock]; omega
    failLevel := by dsimp only [readBlock]; omega
    keys := fun k => (readBlock_keysOk h k).prio }

/-! ### Start-up (R30, R198, R200, R203 to R205) -/

/-- With neither a configuration nor a byte in the buffer, in any load state but HELD. -/
theorem Cl.ok_of_empty {l : LoadState} (h : l ≠ .held) : Cl.Ok ⟨l, [], none⟩ where
  buffer _ := rfl
  filling := Nat.succ_pos 38
  shown := iff_of_false nofun h
  range _ := nofun

theorem State.reset_loadOk (l : List Instr) : LoadOk (State.reset.setPending l) :=
  (loadOk_iff _).2 ⟨rfl, Cl.ok_of_empty nofun, nofun⟩

theorem Work.finish_keepsLoad (order : OfferOrder) (w : Work) : KeepsLoad w.s (w.finish order) :=
  .of_station rfl rfl fun h => by
    rw [Work.finish_eq, State.setCp_cp, Cp.offerAll_restart] at h
    exact h

/-- A station that does not run yet goes on in another state of start-up, with what CL then holds. -/
theorem Work.changeState_loadOk {s : State} (h : LoadOk s) (hrun : s.station.running = false) {cl : Cl} (hcl : cl.Ok)
    {d : StationState} (hd : cl.load = d.loadState) (c : Cause) :
    LoadOk (((Work.start (s.setCl cl)).changeState d c).finish []) := by
  refine (Work.finish_keepsLoad [] _).ok ((loadOk_iff _).2 ⟨hd, hcl, fun hr => ?_⟩)
  have hs := h.restart hr
  rw [hrun] at hs
  cases hs

/-- The publication of a valid block is HELD, in LISTENING (R205). -/
theorem State.configured_loadOk (s : State) {block : List Byte} (hv : faultIndex block = none) (c : Cause) :
    LoadOk (s.configured block c) := by
  refine (loadOk_iff _).2 ⟨rfl, ?_, fun _ => rfl⟩
  exact {
    buffer := fun _ => rfl
    filling := Nat.succ_pos 38
    shown := iff_of_true rfl rfl
    range := fun c e => Option.some.inj e ▸ readBlock_ok hv }

/-- The memory read begins with the empty buffer of IDLE (R198). -/
theorem execResetEnd_keepsLoad {s t : State} (e : execResetEnd s = .next t) : KeepsLoad s t := by
  obtain rfl := Host.Outcome.next.inj e
  refine .ite _ fun hs => ?_
  have hrun : s.station.running = false := by rw [hs]; rfl
  refine .of_starting hrun fun h => ?_
  obtain ⟨hload, hcl, -⟩ := (loadOk_iff s).1 h
  refine Work.changeState_loadOk h hrun ?_ rfl _
  have hnone : ¬s.cl.config.isSome = true := by
    rw [hcl.shown, hload, hs]
    exact nofun
  exact {
    buffer := fun hne => absurd rfl hne
    filling := hcl.filling
    shown := iff_of_false hnone nofun
    range := hcl.range }

/-- The end of a memory read publishes the block, or empties the buffer (R203). -/
theorem State.judgeRead_loadOk {s : State} (h : LoadOk s) (hs : s.station = .loading) (cl : Cl) :
    LoadOk (s.setCl cl).judgeRead := by
  unfold State.judgeRead
  split
  · next hv => exact State.configured_loadOk _ hv _
  · exact Work.changeState_loadOk h (by rw [hs]; rfl) (Cl.ok_of_empty (l := .empty) nofun) rfl _

/-- A read in progress leaves fewer than 39 bytes in the buffer; the 39th ends it (R198, R200). -/
theorem execMemoryReadEnd_keepsLoad {s t : State} (block : List Byte) (e : execMemoryReadEnd block s = .next t) :
    KeepsLoad s t := by
  obtain rfl := Host.Outcome.next.inj e
  refine .ite _ fun ⟨hs, hload⟩ => .of_starting (by rw [hs]; rfl) fun h => ?_
  obtain ⟨hagree, hcl, hrestart⟩ := (loadOk_iff s).1 h
  dsimp only
  split
  · next hshort =>
    rw [Cl.clockIn_fold block s.cl (Nat.le_of_lt hcl.filling)] at hshort ⊢
    refine (loadOk_iff _).2 ⟨hagree, ?_, hrestart⟩
    exact {
      buffer := fun hne => absurd hload hne
      filling := hshort
      shown := hcl.shown
      range := hcl.range }
  · exact State.judgeRead_loadOk h hs _

/-! ### The companion port (R182 to R185, R191, R196) -/

/-- A change at CP alone that makes no restart pending. -/
theorem State.setCp_keepsLoad (s : State) {cp : Cp} (h : cp.restart = true → s.cp.restart = true) :
    KeepsLoad s (s.setCp cp) := .of_station rfl rfl h

theorem State.accept_keepsLoad (s : State) (tag : Byte) (body : List Byte) : KeepsLoad s (s.accept tag body) :=
  s.setCp_keepsLoad fun h => by rwa [Cp.accept, Cp.reply_restart] at h

theorem State.refuse_keepsLoad (s : State) (tag : Byte) (r : Reason) : KeepsLoad s (s.refuse tag r) :=
  s.setCp_keepsLoad fun h => by rwa [Cp.refuse, Cp.reply_restart] at h

theorem State.overrun_keepsLoad (s : State) : KeepsLoad s (s.setCp { s.cp with overrun := true }) :=
  s.setCp_keepsLoad id

theorem State.setAssembler_keepsLoad (s : State) (a : Assembler) : KeepsLoad s (s.setAssembler a) :=
  s.setCp_keepsLoad id

theorem State.linkFault_keepsLoad (s : State) : KeepsLoad s s.linkFault := by
  refine (s.setAssembler_keepsLoad .hunting).trans (State.setCp_keepsLoad _ fun h => ?_)
  unfold Cp.linkError at h
  split at h
  · exact h
  · rwa [Cp.reply_restart] at h

theorem State.doSend_keepsLoad (s : State) (tag : Byte) (body : List Byte) : KeepsLoad s (s.doSend tag body) := by
  unfold State.doSend
  split
  · exact s.refuse_keepsLoad tag _
  · dsimp only
    split
    · refine KeepsLoad.trans ?_ (Work.finish_keepsLoad [] _)
      refine KeepsLoad.trans ?_ (State.accept_keepsLoad (s.setCq _) tag _)
      exact .of_station rfl rfl id
    · exact s.refuse_keepsLoad tag _

/-- RESTART is acted on in a running station alone (R183). -/
theorem RequestType.running_of_restart {st : StationState} (hready : st ≠ .reset)
    (h : RequestType.stateFault .restart st = none) : st.running = true := by
  cases st with
  | reset => exact absurd rfl hready
  | loading | unconfigured => cases h
  | _ => rfl

/-- CONFIGURE is acted on in no running station (R183). -/
theorem RequestType.not_running_of_configure {st : StationState}
    (h : RequestType.stateFault .configure st = none) : st.running = false := by
  refine Bool.eq_false_iff.2 fun hrun => ?_
  rw [RequestType.stateFault_configure hrun] at h
  cases h

/-- The action of a request that has passed its tests: CONFIGURE publishes a valid block in a station that does not run
yet, a restart becomes pending in one that runs, and the others leave CL and the restart indication. -/
theorem RequestType.action_keepsLoad {s : State} (hready : s.station ≠ .reset) (t : RequestType) (tag : Byte)
    {body : List Byte} (hstate : t.stateFault s.station = none) (hfield : t.fieldFault body = none) :
    KeepsLoad s (t.action tag body s) := by
  cases t with
  | configure =>
    exact .of_starting (not_running_of_configure hstate) fun _ => State.configured_loadOk _ hfield _
  | restart => exact .of_running (running_of_restart hready hstate) ⟨rfl, id⟩
  | send => exact s.doSend_keepsLoad tag body
  | subscribe =>
    refine KeepsLoad.trans ?_ (State.accept_keepsLoad (s.setCp _) tag _)
    exact .of_station rfl rfl id
  | queryStation | queryZone | queryMembers | queryScene => exact s.accept_keepsLoad tag _

theorem State.takeRequest_keepsLoad (s : State) (t : RequestType) (tag : Byte) (body : List Byte) :
    KeepsLoad s (s.takeRequest t tag body (t.action tag body)) := by
  rcases s.takeRequest_cases t tag body (t.action tag body) with
    ⟨-, e⟩ | ⟨-, e⟩ | ⟨-, r, e⟩ | ⟨hready, -, -, hstate, hfield, e⟩ <;> rw [e]
  · exact .refl s
  · exact s.overrun_keepsLoad
  · exact s.refuse_keepsLoad tag r
  · exact t.action_keepsLoad hready tag hstate hfield

theorem State.takeFrame_keepsLoad (s : State) (stored : List Byte) : KeepsLoad s (s.takeFrame stored) := by
  unfold State.takeFrame
  dsimp only
  split
  · exact s.takeRequest_keepsLoad _ _ _
  · split
    · exact s.overrun_keepsLoad
    · exact s.refuse_keepsLoad _ _

theorem State.takeByte_keepsLoad (s : State) (b : Byte) (stop : Bool) : KeepsLoad s (s.takeByte b stop) := by
  unfold State.takeByte
  dsimp only
  split
  · exact .ite _ fun _ => s.setAssembler_keepsLoad _
  · split
    · exact s.setAssembler_keepsLoad _
    · exact s.linkFault_keepsLoad
  · split
    · split
      · exact s.setAssembler_keepsLoad _
      · split
        · exact (s.setAssembler_keepsLoad .hunting).trans (State.takeFrame_keepsLoad _ _)
        · exact s.linkFault_keepsLoad
    · exact s.linkFault_keepsLoad

theorem execByteReceived_keepsLoad {s t : State} (b : Byte) (stop : Bool) (e : execByteReceived b stop s = .next t) :
    KeepsLoad s t := by
  obtain rfl := Host.Outcome.next.inj e
  split
  · exact .refl s
  · exact s.takeByte_keepsLoad b stop

theorem execFrameGapTimeout_keepsLoad {s t : State} (e : execFrameGapTimeout s = .next t) : KeepsLoad s t := by
  obtain rfl := Host.Outcome.next.inj e
  split
  · exact .refl s
  · exact s.setAssembler_keepsLoad .hunting

/-- A warm restart keeps the configuration: the station was running when it became pending (R196). -/
theorem State.warmRestart_keepsLoad {s : State} (hrestart : s.cp.restart = true) : KeepsLoad s s.warmRestart := by
  have hwarm : StaysRunning s s.warmRestart := ⟨rfl, fun _ => rfl⟩
  exact {
    ok := fun h => (KeepsLoad.of_running (h.restart hrestart) hwarm).ok h
    held := fun _ _ => hwarm.cl }

theorem Cp.frameEnd_restart (cp : Cp) (f : Sending) : (cp.frameEnd f).restart = cp.restart := by
  have hchoose (c : Cp) : c.choose.restart = c.restart := by
    rcases c.choose_cases with ⟨_, _, e⟩ | ⟨_, _, _, _, e⟩ | ⟨_, _, e⟩ <;> rw [e]
  rw [Cp.frameEnd, hchoose]
  split <;> rfl

theorem execFrameTransmitted_keepsLoad {s t : State} (e : execFrameTransmitted s = .next t) : KeepsLoad s t := by
  obtain rfl := Host.Outcome.next.inj e
  split
  · exact .refl s
  · split
    · next hrestart => exact State.warmRestart_keepsLoad hrestart.2
    · exact s.setCp_keepsLoad fun h => by rwa [Cp.frameEnd_restart] at h

/-! ### Cells, faults and clears -/

theorem execCellStart_keepsLoad {s t : State} (o : CellObs) (e : execCellStart o s = .next t) : KeepsLoad s t := by
  have hcell : KeepsLoad s (if (o.transition && s.inMark) = true then s.insideMark o
      else ((if s.disturbedBy o then (Work.start s).disturb else Work.start s).on (State.beginCell o)).finish []) := by
    split
    · exact .of_station rfl rfl id
    · refine KeepsLoad.trans ?_ (Work.finish_keepsLoad [] _)
      split
      · rw [Work.on_s, Work.disturb_s]
        exact .of_station rfl rfl id
      · exact .of_station rfl rfl id
  obtain rfl := Host.Outcome.next.inj e
  split
  · exact hcell
  · exact hcell
  · exact hcell
  · unfold State.faultCell
    dsimp only
    split <;> exact .of_station rfl rfl id
  · exact .refl s
  · exact .refl s
  · exact .refl s

theorem execStuckPull_keepsLoad {s t : State} (o : PullObs) (order : OfferOrder)
    (e : execStuckPull o order s = .next t) : KeepsLoad s t := by
  obtain rfl := Host.Outcome.next.inj e
  refine .ite _ fun ⟨hrun, _, _⟩ => .of_running hrun ?_
  split
  · exact ⟨rfl, id⟩
  · refine .finish order (StaysRunning.trans ?_ (.enterLineFault (.start _) _))
    exact ⟨rfl, id⟩

theorem execLineClear_keepsLoad {s t : State} (e : execLineClear s = .next t) : KeepsLoad s t := by
  obtain rfl := Host.Outcome.next.inj e
  have hemptied : StaysRunning s ((s.setMu (s.mu.forgetOthers s.number)).setZe { s.ze with failsafe := 0 }) :=
    ⟨by simp, by simp⟩
  exact .ite _ fun ⟨hs, _⟩ => .of_running (by rw [hs]; rfl)
    (.finish [] (hemptied.trans (.enterListening (.start _) .lineClear)))

/-! ### The fields of a frame -/

theorem State.running_of_readsFields {s : State} (h : s.readsFields = true) : s.station.running = true :=
  StationState.running_of_reading (Bool.and_eq_true_iff.1 h).1

theorem countCell_keepsLoad (order : OfferOrder) (s : State) (r : Reading) : KeepsLoad s (countCell order s r) := by
  refine .ite _ fun ⟨hreads, _, _⟩ => .of_running (State.running_of_readsFields hreads) ?_
  refine .finish order (.unlessFaulted (.ifFault _ (.start s)) fun w => ?_)
  have hread : StaysRunning w.s (w.on fun x => x.setLc (x.lc.readCount (s.sends s.lc.nextCell) r)).s := ⟨rfl, id⟩
  exact .ite _ (hread.trans (.countComplete _ _)) hread

theorem execPresenceCell_keepsLoad {s t : State} (r : Reading) (order : OfferOrder)
    (e : execPresenceCell r order s = .next t) : KeepsLoad s t := by
  obtain rfl := Host.Outcome.next.inj e
  refine .ite _ fun ⟨hreads, _⟩ => .of_running (StationState.running_of_reading (State.reading_of_reads hreads)) ?_
  refine .finish order (.unlessFaulted (.ifFault _ (.start s)) fun w => ?_)
  have hread : StaysRunning w.s (w.on fun x => x.setLc x.lc.advance).s := ⟨rfl, id⟩
  exact .ite _ (hread.trans (.ownPresence _ r)) (hread.trans (.otherPresence _ _ r))

theorem claimCell_keepsLoad (order : OfferOrder) (s : State) (r : Reading) : KeepsLoad s (claimCell order s r) := by
  rw [claimCell_eq]
  refine .ite _ fun ⟨hreads, _⟩ => .of_running (State.running_of_readsFields hreads) ?_
  refine .finish order (.unlessFaulted (.claimLine s r) fun w => ?_)
  have hread : StaysRunning w.s (w.on fun x => x.readClaim r).s := ⟨rfl, id⟩
  exact .ite _ (hread.trans (.claimComplete _)) hread

theorem State.openClaim_keepsLoad (s : State) : KeepsLoad s s.openClaim := by
  refine .ite _ fun _ => ?_
  split
  · exact .of_station rfl rfl id
  · dsimp only
    split <;> exact .of_station rfl rfl id

theorem messageCell_keepsLoad (faultFirst : Bool) (order : OfferOrder) (s : State) (r : Reading) :
    KeepsLoad s (messageCell faultFirst order s r) := by
  refine .ite _ fun ⟨hreads, _⟩ => .of_running (State.running_of_readsFields hreads) ?_
  split
  · exact .finish order (.receive (.start s) r)
  · split
    · split
      · exact .finish order (.unlessFaulted (.driveFault (.start s)) fun w => .readBack w r)
      · exact .finish order ((StaysRunning.readBack (.start s) r).trans (.driveFault _))
    · exact .finish order (.readBack (.start s) r)

theorem execVetoCell_keepsLoad {s t : State} (r : Reading) (faultFirst : Bool) (order : OfferOrder)
    (e : execVetoCell r faultFirst order s = .next t) : KeepsLoad s t := by
  obtain rfl := Host.Outcome.next.inj e
  refine .ite _ fun ⟨hreads, _⟩ => .of_running (StationState.running_of_reading (State.reading_of_reads hreads)) ?_
  have hdecided : StaysRunning s s.decideVeto := ⟨rfl, id⟩
  have hveto : StaysRunning s ((Work.start s.decideVeto).readVeto r).s := hdecided.trans (.readVeto (.start _) r)
  dsimp only
  split
  · split
    · exact .finish order (.unlessFaulted (hdecided.trans (.driveFault (.start _))) fun w => .readVeto w r)
    · exact .finish order (hveto.trans (.driveFault _))
  · exact .finish order hveto

/-! ### The pulse trains -/

theorem State.reach_keepsLoad (s : State) (p : Nat) : KeepsLoad s (s.reach p) :=
  .ite _ fun _ => .of_station rfl rfl id

/-! ### Every command -/

/-- What the reading of each cell keeps, the readings of a field keep. -/
theorem foldl_keepsLoad {f : State → Reading → State} (hf : ∀ u r, KeepsLoad u (f u r)) (cells : List Reading)
    (s : State) : KeepsLoad s (cells.foldl f s) :=
  List.foldlRecOn cells f (.refl s) fun u hu r _ => hu.trans (hf u r)

theorem exec_keepsLoad {s t : State} (c : Instr) (hc : c ≠ .coldReset) (e : exec c s = .next t) : KeepsLoad s t := by
  cases c with
  | coldReset => exact absurd rfl hc
  | resetEnd => exact execResetEnd_keepsLoad e
  | memoryReadEnd block => exact execMemoryReadEnd_keepsLoad block e
  | byteReceived data stop => exact execByteReceived_keepsLoad data stop e
  | frameGapTimeout => exact execFrameGapTimeout_keepsLoad e
  | configure tag body | send tag body | queryStation tag body | queryZone tag body | queryMembers tag body
  | queryScene tag body | subscribe tag body | restart tag body =>
    obtain rfl := Host.Outcome.next.inj e
    exact s.takeRequest_keepsLoad _ tag body
  | frameTransmitted => exact execFrameTransmitted_keepsLoad e
  | cellStart o => exact execCellStart_keepsLoad o e
  | frameTimerExpiry m =>
    obtain rfl := Host.Outcome.next.inj e
    exact .ite _ fun ⟨hs, _, _⟩ => .of_running (StationState.running_of_ticking hs) (.takeMark _ m s)
  | frameMark m =>
    obtain rfl := Host.Outcome.next.inj e
    exact .ite _ fun ⟨hs, _, _⟩ => .of_running (StationState.running_of_reading hs) (.takeMark _ m s)
  | localFrameMark m =>
    obtain rfl := Host.Outcome.next.inj e
    exact .ite _ fun ⟨hs, _⟩ => .of_running (by rw [hs]; rfl) (.takeMark _ m s)
  | founding m =>
    obtain rfl := Host.Outcome.next.inj e
    refine .ite _ fun hs => .of_running ?_ (.takeMark _ m s)
    rw [eq_of_beq (Bool.and_eq_true_iff.1 hs).1]
    rfl
  | fadeEnd z | holdExpiry z | aged z =>
    obtain rfl := Host.Outcome.next.inj e
    exact .ite _ fun ⟨hlive, _⟩ => .of_running (Bool.and_eq_true_iff.1 hlive).1 ⟨rfl, id⟩
  | failsafe =>
    obtain rfl := Host.Outcome.next.inj e
    exact .ite _ fun _ => .of_station rfl rfl id
  | stale i =>
    obtain rfl := Host.Outcome.next.inj e
    exact .ite _ fun hrun => .of_running hrun ⟨rfl, id⟩
  | longPress k | repeatDue k =>
    obtain rfl := Host.Outcome.next.inj e
    exact .ite _ fun ⟨hheld, _⟩ => .of_running ((s.keyHeld_iff k).1 hheld).1 (.holdKey s k)
  | countField cells order =>
    obtain rfl := Host.Outcome.next.inj e
    exact foldl_keepsLoad (countCell_keepsLoad order) cells s
  | presenceCell r order => exact execPresenceCell_keepsLoad r order e
  | claimField cells order =>
    obtain rfl := Host.Outcome.next.inj e
    exact s.openClaim_keepsLoad.trans (foldl_keepsLoad (claimCell_keepsLoad order) cells _)
  | message cells faultFirst order =>
    obtain rfl := Host.Outcome.next.inj e
    exact foldl_keepsLoad (messageCell_keepsLoad faultFirst order) cells s
  | vetoCell r faultFirst order => exact execVetoCell_keepsLoad r faultFirst order e
  | stuckPull o order => exact execStuckPull_keepsLoad o order e
  | lineClear => exact execLineClear_keepsLoad e
  | outputPeriodStart ch n =>
    obtain rfl := Host.Outcome.next.inj e
    split
    · exact s.reach_keepsLoad _
    · exact .refl s
  | pulseEdge ch pos =>
    obtain rfl := Host.Outcome.next.inj e
    split
    · exact .ite _ fun _ => s.reach_keepsLoad _
    · exact .refl s

/-- Settles O60, command by command: a running station stays running with CL in HELD untouched, and a station that does
not run yet goes on with what CL then holds. -/
theorem stepsKeepTheConfiguration : Obligations.StepsKeepTheConfiguration := by
  intro s t h e
  unfold step at e
  split at e
  · obtain rfl := Host.Outcome.next.inj e
    exact ⟨h, fun _ _ => rfl⟩
  · next c rest hpending =>
    have htaken : KeepsLoad s (s.setPending rest) := .of_station rfl rfl id
    by_cases hc : c = .coldReset
    · subst hc
      obtain rfl := Host.Outcome.next.inj e
      refine ⟨State.reset_loadOk _, fun _ hne => absurd ?_ hne⟩
      rw [hpending]
      rfl
    · have hstep := htaken.trans (exec_keepsLoad c hc e)
      exact ⟨hstep.ok h, fun hheld _ => hstep.held h hheld⟩

end Sys2Proof.Machine

/-! The queue of waiting commands: a step takes its front, and no part of a command's work reaches it (log entry 8). -/

namespace Sys2Proof.Machine

/-- Settles O1: what the command leaves is decided by the front of the queue alone. -/
theorem stepRunsFrontCommand : Obligations.StepRunsFrontCommand := by
  intro c rest s h
  rw [step, h]

/-! ### Guards -/

/-- A command whose condition fails answers the state as it stands, the queue included (log entry 2). -/
theorem State.pending_guard (s : State) (c : Prop) [Decidable c] {t : State} (h : t.pending = s.pending) :
    (if c then t else s).pending = s.pending := by
  split
  · exact h
  · rfl

/-- What two courses of a happening leave of the queue, the happening leaves whichever it takes. -/
theorem Work.pending_ite (c : Prop) [Decidable c] {v w : Work} {l : List Instr} (hv : v.s.pending = l)
    (hw : w.s.pending = l) : (if c then v else w).s.pending = l := by
  split
  · exact hv
  · exact hw

/-! ### The shared operations -/

@[simp] theorem Work.voided_pending (w : Work) (p : Option Presenter) : (w.voided p).s.pending = w.s.pending := by
  rw [Work.voided_s]
  split <;> rfl

@[simp] theorem Work.enterLineFault_pending (w : Work) (c : Cause) :
    (w.enterLineFault c).s.pending = w.s.pending := by
  obtain ⟨-, -, -, -, -, hpending⟩ := w.enterLineFault_frame c
  exact hpending

@[simp] theorem Work.enterListening_pending (w : Work) (c : Cause) :
    (w.enterListening c).s.pending = w.s.pending := rfl

@[simp] theorem Work.raise_pending (w : Work) (n : Nat) : (w.raise n).s.pending = w.s.pending := by
  rw [Work.raise_s]
  split
  · split <;> rfl
  · rfl

@[simp] theorem Work.disturb_pending (w : Work) : w.disturb.s.pending = w.s.pending := by
  rw [Work.disturb_s]
  rfl

@[simp] theorem Work.driveFault_pending (w : Work) : w.driveFault.s.pending = w.s.pending := by
  rw [Work.driveFault_s]
  split
  · rfl
  · dsimp only
    split
    · exact Work.enterLineFault_pending _ _
    · exact Work.raise_pending _ 8

theorem Work.unlessFaulted_pending (w : Work) {f : Work → Work} (hf : (f w).s.pending = w.s.pending) :
    (w.unlessFaulted f).s.pending = w.s.pending := Work.pending_ite _ rfl hf

/-- The drive fault of a cell, where its reading shows one. -/
theorem Work.ifFault_pending (c : Bool) (w : Work) : (if c then w.driveFault else w).s.pending = w.s.pending :=
  Work.pending_ite _ w.driveFault_pending rfl

/-! ### Resets, publication and the memory read -/

@[simp] theorem State.configured_pending (s : State) (block : List Byte) (c : Cause) :
    (s.configured block c).pending = s.pending := rfl

@[simp] theorem State.judgeRead_pending (s : State) : s.judgeRead.pending = s.pending := by
  unfold State.judgeRead
  split <;> rfl

@[simp] theorem State.warmRestart_pending (s : State) : s.warmRestart.pending = s.pending := rfl

theorem execResetEnd_keepsPending (s : State) : ∃ t, execResetEnd s = .next t ∧ t.pending = s.pending := by
  refine ⟨_, rfl, s.pending_guard _ ?_⟩
  simp

theorem execMemoryReadEnd_keepsPending (block : List Byte) (s : State) :
    ∃ t, execMemoryReadEnd block s = .next t ∧ t.pending = s.pending := by
  refine ⟨_, rfl, s.pending_guard _ ?_⟩
  dsimp only
  split
  · rfl
  · exact State.judgeRead_pending _

/-! ### The companion port -/

@[simp] theorem State.accept_pending (s : State) (tag : Byte) (body : List Byte) :
    (s.accept tag body).pending = s.pending := rfl

@[simp] theorem State.refuse_pending (s : State) (tag : Byte) (r : Reason) :
    (s.refuse tag r).pending = s.pending := rfl

@[simp] theorem State.setAssembler_pending (s : State) (a : Assembler) : (s.setAssembler a).pending = s.pending := rfl

@[simp] theorem State.linkFault_pending (s : State) : s.linkFault.pending = s.pending := rfl

@[simp] theorem State.doSend_pending (s : State) (tag : Byte) (body : List Byte) :
    (s.doSend tag body).pending = s.pending := by
  unfold State.doSend
  split
  · rfl
  · dsimp only
    split <;> rfl

@[simp] theorem RequestType.action_pending (t : RequestType) (tag : Byte) (body : List Byte) (s : State) :
    (t.action tag body s).pending = s.pending := by
  cases t with
  | send => exact s.doSend_pending tag body
  | configure | queryStation | queryZone | queryMembers | queryScene | subscribe | restart => rfl

@[simp] theorem State.takeRequest_pending (s : State) (t : RequestType) (tag : Byte) (body : List Byte) :
    (s.takeRequest t tag body (t.action tag body)).pending = s.pending := by
  rcases s.takeRequest_cases t tag body (t.action tag body) with
    ⟨-, e⟩ | ⟨-, e⟩ | ⟨-, r, e⟩ | ⟨-, -, -, -, -, e⟩ <;> rw [e]
  · rfl
  · rfl
  · exact t.action_pending tag body s

@[simp] theorem State.takeFrame_pending (s : State) (stored : List Byte) :
    (s.takeFrame stored).pending = s.pending := by
  unfold State.takeFrame
  dsimp only
  split
  · exact s.takeRequest_pending _ _ _
  · split <;> rfl

theorem State.takeByte_pending (s : State) (b : Byte) (stop : Bool) : (s.takeByte b stop).pending = s.pending := by
  unfold State.takeByte
  dsimp only
  split
  · exact s.pending_guard _ rfl
  · split <;> rfl
  · split
    · split
      · rfl
      · split
        · exact State.takeFrame_pending _ _
        · rfl
    · rfl

theorem execByteReceived_keepsPending (b : Byte) (stop : Bool) (s : State) :
    ∃ t, execByteReceived b stop s = .next t ∧ t.pending = s.pending := by
  refine ⟨_, rfl, ?_⟩
  split
  · rfl
  · exact s.takeByte_pending b stop

theorem execFrameGapTimeout_keepsPending (s : State) :
    ∃ t, execFrameGapTimeout s = .next t ∧ t.pending = s.pending := by
  refine ⟨_, rfl, ?_⟩
  split <;> rfl

theorem execFrameTransmitted_keepsPending (s : State) :
    ∃ t, execFrameTransmitted s = .next t ∧ t.pending = s.pending := by
  refine ⟨_, rfl, ?_⟩
  split
  · rfl
  · split <;> rfl

/-! ### Cells, faults and clears -/

theorem State.beginCell_pending (o : CellObs) (s : State) : (s.beginCell o).pending = s.pending := rfl

theorem State.faultCell_pending (o : CellObs) (s : State) : (s.faultCell o).pending = s.pending := by
  unfold State.faultCell
  dsimp only
  split
  · rw [State.setLc_pending]
  · rw [State.setOu_pending, State.setLc_pending]

theorem execCellStart_keepsPending (o : CellObs) (s : State) :
    ∃ t, execCellStart o s = .next t ∧ t.pending = s.pending := by
  have hcell : (if (o.transition && s.inMark) = true then s.insideMark o
      else ((if s.disturbedBy o then (Work.start s).disturb else Work.start s).on (State.beginCell o)).finish
        []).pending = s.pending := by
    split
    · rfl
    · exact (State.beginCell_pending o _).trans (Work.pending_ite _ (Work.disturb_pending _) rfl)
  refine ⟨_, rfl, ?_⟩
  split
  · exact hcell
  · exact hcell
  · exact hcell
  · exact s.faultCell_pending o
  · rfl
  · rfl
  · rfl

theorem execStuckPull_keepsPending (o : PullObs) (order : OfferOrder) (s : State) :
    ∃ t, execStuckPull o order s = .next t ∧ t.pending = s.pending := by
  refine ⟨_, rfl, s.pending_guard _ ?_⟩
  dsimp only
  split
  · rfl
  · rw [Work.finish_pending, Work.enterLineFault_pending, Work.start_s, State.setLc_pending]

theorem execLineClear_keepsPending (s : State) : ∃ t, execLineClear s = .next t ∧ t.pending = s.pending := by
  refine ⟨_, rfl, s.pending_guard _ ?_⟩
  simp

/-! ### The fields of a frame -/

@[simp] theorem Work.countComplete_pending (w : Work) (active : Bool) :
    (w.countComplete active).s.pending = w.s.pending := by
  unfold Work.countComplete
  dsimp only
  split <;> split <;> rfl

theorem countCell_pending (order : OfferOrder) (s : State) (r : Reading) :
    (countCell order s r).pending = s.pending := by
  have hread (w : Work) :
      (w.on fun x => x.setLc (x.lc.readCount (s.sends s.lc.nextCell) r)).s.pending = w.s.pending := rfl
  refine s.pending_guard _ ((Work.unlessFaulted_pending _ ?_).trans (Work.ifFault_pending _ (.start s)))
  exact Work.pending_ite _ ((Work.countComplete_pending _ _).trans (hread _)) (hread _)

@[simp] theorem Work.ownPresence_pending (w : Work) (r : Reading) : (w.ownPresence r).s.pending = w.s.pending := by
  unfold Work.ownPresence
  split
  · cases r <;> rfl
  · cases r <;> rfl
  · rfl

@[simp] theorem Work.otherPresence_pending (w : Work) (i : Fin 32) (r : Reading) :
    (w.otherPresence i r).s.pending = w.s.pending := rfl

theorem execPresenceCell_keepsPending (r : Reading) (order : OfferOrder) (s : State) :
    ∃ t, execPresenceCell r order s = .next t ∧ t.pending = s.pending := by
  refine ⟨_, rfl, s.pending_guard _ ?_⟩
  have hread (w : Work) : (w.on fun x => x.setLc x.lc.advance).s.pending = w.s.pending := rfl
  refine (Work.unlessFaulted_pending _ ?_).trans (Work.ifFault_pending _ (.start s))
  exact Work.pending_ite _ ((Work.ownPresence_pending _ r).trans (hread _))
    ((Work.otherPresence_pending _ _ r).trans (hread _))

@[simp] theorem State.openClaim_pending (s : State) : s.openClaim.pending = s.pending := by
  refine s.pending_guard _ ?_
  split
  · rfl
  · dsimp only
    split <;> rfl

@[simp] theorem State.claimComplete_pending (s : State) : s.claimComplete.pending = s.pending := by
  unfold State.claimComplete
  dsimp only
  split
  · exact s.endContest_pending
  · split <;> rfl

/-- A contest that ends in a claim cell, for loss or because the station has left ACTIVE, gives its entry back to the
claim queue: the queue of commands is another. -/
theorem State.claimLine_pending (s : State) (r : Reading) : (s.claimLine r).s.pending = s.pending := by
  unfold State.claimLine
  dsimp only
  have hkept : (if s.station = .active then s else s.endContest).pending = s.pending := by
    split
    · rfl
    · exact s.endContest_pending
  generalize (if s.station = .active then s else s.endContest) = t at hkept ⊢
  exact (Work.ifFault_pending _ _).trans ((Work.pending_ite _ t.endContest_pending rfl).trans hkept)

theorem claimCell_pending (order : OfferOrder) (s : State) (r : Reading) :
    (claimCell order s r).pending = s.pending := by
  have hread (w : Work) : (w.on fun x => x.readClaim r).s.pending = w.s.pending := rfl
  rw [claimCell_eq]
  refine s.pending_guard _ ((Work.unlessFaulted_pending _ ?_).trans (s.claimLine_pending r))
  exact Work.pending_ite _ ((State.claimComplete_pending _).trans (hread _)) (hread _)

@[simp] theorem Work.receive_pending (w : Work) (r : Reading) : (w.receive r).s.pending = w.s.pending := by
  have hdisturbed : (if w.s.msu.frame.atPad && !r then w.disturb else w).s.pending = w.s.pending :=
    Work.pending_ite _ w.disturb_pending rfl
  exact hdisturbed

@[simp] theorem Work.readBack_pending (w : Work) (r : Reading) : (w.readBack r).s.pending = w.s.pending :=
  Work.pending_ite _ (Work.raise_pending _ 4) rfl

/-- The originator's reading and its drive fault, taken in either order (R75). -/
theorem Work.faultAndRead_pending (w : Work) (faultFirst : Bool) (order : OfferOrder) {f : Work → Work}
    (hf : ∀ v, (f v).s.pending = v.s.pending) :
    (if faultFirst then (w.driveFault.unlessFaulted f).finish order
      else ((f w).driveFault).finish order).pending = w.s.pending := by
  split
  · exact (Work.unlessFaulted_pending _ (hf _)).trans w.driveFault_pending
  · exact (Work.driveFault_pending _).trans (hf w)

theorem messageCell_pending (faultFirst : Bool) (order : OfferOrder) (s : State) (r : Reading) :
    (messageCell faultFirst order s r).pending = s.pending := by
  refine s.pending_guard _ ?_
  split
  · exact Work.receive_pending _ r
  · split
    · exact (Work.start s).faultAndRead_pending faultFirst order fun v => v.readBack_pending r
    · exact Work.readBack_pending _ r

@[simp] theorem State.statementSettled_pending (s : State) : s.statementSettled.pending = s.pending := by
  unfold State.statementSettled
  split
  · rfl
  · dsimp only
    split <;> split <;> rfl

@[simp] theorem Work.outcomeOf_pending (w : Work) (v : Verdict) (p : Option Presenter) :
    (w.outcomeOf v p).s.pending = w.s.pending := by
  unfold Work.outcomeOf
  split
  · dsimp only
    split
    · rfl
    · exact State.statementSettled_pending _
    · rfl
  · exact w.voided_pending p

@[simp] theorem Work.readVeto_pending (w : Work) (r : Reading) : (w.readVeto r).s.pending = w.s.pending := by
  unfold Work.readVeto
  dsimp only
  have hraised : (if w.s.msu.frame.role = .receiver ∧ w.s.msu.frame.faultFound = true then w.raise 1
      else w).s.pending = w.s.pending := Work.pending_ite _ (w.raise_pending 1) rfl
  generalize (if w.s.msu.frame.role = .receiver ∧ w.s.msu.frame.faultFound = true then w.raise 1 else w) = v
    at hraised ⊢
  have hmarked : (if w.s.msu.frame.verdict r = .discarded then
      (v.on fun s => s.takeResult (w.s.msu.frame.verdict r)).on State.markZones
      else v.on fun s => s.takeResult (w.s.msu.frame.verdict r)).s.pending = w.s.pending :=
    Work.pending_ite _ hraised hraised
  refine Work.pending_ite _ ((Work.outcomeOf_pending _ _ _).trans ?_) hmarked
  exact Work.pending_ite _ ((Work.raise_pending _ 4).trans hmarked) hmarked

theorem execVetoCell_keepsPending (r : Reading) (faultFirst : Bool) (order : OfferOrder) (s : State) :
    ∃ t, execVetoCell r faultFirst order s = .next t ∧ t.pending = s.pending := by
  refine ⟨_, rfl, s.pending_guard _ ?_⟩
  dsimp only
  split
  · exact (Work.start s.decideVeto).faultAndRead_pending faultFirst order fun v => v.readVeto_pending r
  · exact Work.readVeto_pending _ r

/-! ### Marks, the rows that do a part of one, and the pulse trains -/

theorem Work.joinTest_pending (w : Work) : w.joinTest.s.pending = w.s.pending :=
  Work.pending_ite _ rfl (Work.pending_ite _ rfl rfl)

theorem Work.cleanTest_pending (w : Work) : w.cleanTest.s.pending = w.s.pending := by
  have hcleaned : (if w.s.cleanFrame then w.on fun s => s.setMu { s.mu with score := s.mu.score - 1 }
      else w).s.pending = w.s.pending := Work.pending_ite _ rfl rfl
  exact Work.pending_ite _ hcleaned hcleaned

@[simp] theorem Work.judgeFrame_pending (k : MarkKind) (w : Work) : (w.judgeFrame k).s.pending = w.s.pending := by
  unfold Work.judgeFrame
  dsimp only
  split
  · rfl
  · rfl
  · exact Work.pending_ite _ (Work.joinTest_pending _) (Work.cleanTest_pending _)

theorem Work.evidence_pending (k : MarkKind) (m : MarkObs) (w : Work) : (w.evidence k m).s.pending = w.s.pending := by
  obtain ⟨members, hs⟩ := w.evidence_s k m
  rw [hs]
  rfl

theorem Work.zoneStages_pending (k : MarkKind) (fullActive : Bool) (w : Work) :
    (w.zoneStages k fullActive).s.pending = w.s.pending := by
  obtain ⟨ze, ss, hs⟩ := w.zoneStages_s k fullActive
  rw [hs]
  rfl

theorem State.outputsAtMark_pending (k : MarkKind) (s : State) : (s.outputsAtMark k).pending = s.pending := rfl

theorem beforeQueue_pending (k : MarkKind) (m : MarkObs) (s : State) : (beforeQueue k m s).s.pending = s.pending := by
  unfold beforeQueue
  rw [Work.on_s, State.outputsAtMark_pending, Work.zoneStages_pending, Work.evidence_pending, Work.judgeFrame_pending,
    Work.endFrame_s]
  rfl

theorem takeMark_pending (k : MarkKind) (m : MarkObs) (s : State) : (takeMark k m s).pending = s.pending := by
  obtain ⟨-, -, -, -, -, -, -, -, -, hqueued⟩ :=
    queueTasks_same m (s.inFrame .queue) (taskOrder m.queueOrder) (beforeQueue k m s)
  exact hqueued.trans (beforeQueue_pending k m s)

theorem State.holdKey_pending (s : State) (k : Fin 4) : (s.holdKey k).pending = s.pending := by
  unfold State.holdKey
  dsimp only
  obtain ⟨⟨-, -, -, -, -, -, -, -, -, hoffered⟩, -⟩ := Work.keyOffer_same _ k _
  exact hoffered

theorem execStale_keepsPending (i : Nat) (s : State) : ∃ t, execStale i s = .next t ∧ t.pending = s.pending := by
  refine ⟨_, rfl, s.pending_guard _ ?_⟩
  simp

theorem State.reach_pending (s : State) (p : Nat) : (s.reach p).pending = s.pending := s.pending_guard _ rfl

theorem execOutputPeriodStart_keepsPending (ch : Fin 4) (n : Nat) (s : State) :
    ∃ t, execOutputPeriodStart ch n s = .next t ∧ t.pending = s.pending := by
  refine ⟨_, rfl, ?_⟩
  split
  · exact s.reach_pending _
  · rfl

theorem execPulseEdge_keepsPending (ch : Fin 4) (pos : Nat) (s : State) :
    ∃ t, execPulseEdge ch pos s = .next t ∧ t.pending = s.pending := by
  refine ⟨_, rfl, ?_⟩
  split
  · exact s.pending_guard _ (s.reach_pending pos)
  · rfl

/-! ### Every command -/

/-- What the reading of each cell leaves, the readings of a field leave. -/
theorem foldl_pending {f : State → Reading → State} (hf : ∀ u r, (f u r).pending = u.pending) (cells : List Reading)
    (s : State) : (cells.foldl f s).pending = s.pending :=
  List.foldlRecOn (motive := fun u => u.pending = s.pending) cells f rfl fun u hu r _ => (hf u r).trans hu

/-- Settles O2, command by command: each answers a next state, and none of the parts of its work reaches the queue. -/
theorem commandsCompleteAndKeepTheQueue : Obligations.CommandsCompleteAndKeepTheQueue := by
  intro c s
  cases c with
  | coldReset => exact ⟨_, rfl, rfl⟩
  | resetEnd => exact execResetEnd_keepsPending s
  | lineClear => exact execLineClear_keepsPending s
  | failsafe => exact ⟨_, rfl, s.pending_guard _ (s.setZe_pending _)⟩
  | stale place => exact execStale_keepsPending place s
  | memoryReadEnd block => exact execMemoryReadEnd_keepsPending block s
  | byteReceived data stop => exact execByteReceived_keepsPending data stop s
  | frameGapTimeout => exact execFrameGapTimeout_keepsPending s
  | configure tag body | send tag body | queryStation tag body | queryZone tag body | queryMembers tag body
  | queryScene tag body | subscribe tag body | restart tag body =>
    exact ⟨_, rfl, s.takeRequest_pending _ tag body⟩
  | frameTransmitted => exact execFrameTransmitted_keepsPending s
  | cellStart o => exact execCellStart_keepsPending o s
  | frameTimerExpiry m | frameMark m | localFrameMark m | founding m =>
    exact ⟨_, rfl, s.pending_guard _ (takeMark_pending _ m s)⟩
  | fadeEnd z | holdExpiry z | aged z => exact ⟨_, rfl, s.pending_guard _ rfl⟩
  | longPress k | repeatDue k => exact ⟨_, rfl, s.pending_guard _ (s.holdKey_pending k)⟩
  | countField cells order => exact ⟨_, rfl, foldl_pending (countCell_pending order) cells s⟩
  | presenceCell r order => exact execPresenceCell_keepsPending r order s
  | claimField cells order =>
    exact ⟨_, rfl, (foldl_pending (claimCell_pending order) cells _).trans s.openClaim_pending⟩
  | message cells faultFirst order => exact ⟨_, rfl, foldl_pending (messageCell_pending faultFirst order) cells s⟩
  | vetoCell r faultFirst order => exact execVetoCell_keepsPending r faultFirst order s
  | stuckPull o order => exact execStuckPull_keepsPending o order s
  | outputPeriodStart ch n => exact execOutputPeriodStart_keepsPending ch n s
  | pulseEdge ch pos => exact execPulseEdge_keepsPending ch pos s

end Sys2Proof.Machine
